-- ==== Sys2Proof/Word.lean ====
section
/-! DEFINITION. The bit-vector types of the ports, of a posit pattern and of the transaction word.
Bit 0 is the least significant bit of every one of them (R7, R31). -/

namespace Sys2Proof

/-- A 64-bit port value: the operand port `a` and the result port `y` (R20, R21). -/
abbrev Word := BitVec 64

/-- A posit16 bit pattern, "the sole runtime representation of a posit" (R55). -/
abbrev Pattern := BitVec 16

/-- The 4-bit op code (R20). -/
abbrev OpCode := BitVec 4

/-- The 68-bit transaction word `T`, with `T[67:64] = op` and `T[63:0] = a` (R40). -/
abbrev TWord := BitVec 68

end Sys2Proof
end

