-- ==== Sys2Proof/Machine/Posit.lean ====
section
/-! DEFINITION. The posit16 format (R55 to R66): the constants, negation, classification, field decoding and exact value. -/

namespace Sys2Proof.Machine

/-- The all-zero pattern (R56). -/
def ZERO : Pattern := 0x0000#16
/-- Not a Real: the sign bit alone set (R56). -/
def NAR : Pattern := 0x8000#16
/-- The number 1 (R64). -/
def ONE : Pattern := 0x4000#16
/-- The largest value, 2^28 (R64). -/
def MAX : Pattern := 0x7FFF#16
/-- The smallest value, −2^28 (R64). -/
def MIN : Pattern := 0x8001#16
/-- The smallest positive value, 2^−28 (R64). -/
def MIN_POSITIVE : Pattern := 0x0001#16
/-- The second-largest finite pattern, 2^26 (R64). -/
def SECOND_LARGEST : Pattern := 0x7FFE#16

/-- R57: `neg16(p) = bits16(~p + 1)`. -/
def neg16 (p : Pattern) : Pattern := ~~~p + 1#16

/-- The classes of patterns (R58). -/
inductive PatternClass where
  | zero
  | nar
  | positive
  | negative
  deriving DecidableEq, Repr

/-- R58, comparing as unsigned 16-bit values. -/
def classify (p : Pattern) : PatternClass :=
  if p = ZERO then .zero else if p = NAR then .nar else if p.toNat ≤ 0x7FFF then .positive else .negative

/-- The sign bit `p[15]` (R55). -/
def signBit (p : Pattern) : Bool := p.getLsbD 15

/-- The magnitude pattern: `neg16(p)` for a negative pattern, `p` itself otherwise (R58). -/
def magnitude (p : Pattern) : Pattern := if signBit p then neg16 p else p

/-- How many of the bits `p[i], p[i-1], …, p[0]` equal `r0` before the first that differs (R59). The method is not
architectural (R127). -/
def runLength (p : Nat) (r0 : Bool) : Nat → Nat
  | 0 => if p.testBit 0 = r0 then 1 else 0
  | i + 1 => if p.testBit (i + 1) = r0 then runLength p r0 i + 1 else 0

/-- What field decoding returns (R59): the regime value `k`, the exponent bit `e`, the fraction `f` and its width `fw`. -/
structure Fields where
  k : Int
  e : Nat
  f : Nat
  fw : Nat
  deriving DecidableEq, Repr

/-- R59 for a field that starts at bit `top`: the regime run from `p[top]` downward, its terminator at `t = top - r`, the
exponent bit at `t - 1` where `t ≥ 1` and 0 otherwise (R60), and below it the fraction of `max(0, t - 1)` bits (R61). The
condition `t ≥ 1` is `r < top` here and `t - 1` is `top - 1 - r`, a natural number that is 0 where `t - 1` is negative. -/
def fieldsFrom (top p : Nat) : Fields :=
  let r0 := p.testBit top
  let r := runLength p r0 top
  let fw := top - 1 - r
  { k := if r0 then (r : Int) - 1 else -(r : Int)
    e := if r < top then (p.testBit (top - 1 - r)).toNat else 0
    f := p % 2 ^ fw
    fw := fw }

/-- `fields(p)` of a positive posit16 pattern, whose regime starts at `p[14]` (R59, R125). -/
def fields (p : Pattern) : Fields := fieldsFrom 14 p.toNat

/-- The scale `s = 2k + e` (R62). -/
def Fields.scale (x : Fields) : Int := 2 * x.k + x.e

/-- Whether the exponent bit is present: `t ≥ 1`, that is, for every positive pattern but three (R60, R126). -/
def expPresent (q : Pattern) : Bool := !(q == 0x7FFF#16 || q == 0x7FFE#16 || q == 0x0001#16)

/-- `2^s × (1 + f / 2^w)`, the real number of scale `s` and `w`-bit fraction `f` (R63, R72, R105). -/
def scaled (s : Int) (f w : Nat) : Rat := (2 : Rat) ^ s * (1 + (f : Rat) / 2 ^ w)

/-- The value of a positive pattern from its fields (R63). -/
def Fields.value (x : Fields) : Rat := scaled x.scale x.f x.fw

/-- R63: the exact rational value of a pattern, none for NaR. -/
def value (p : Pattern) : Option Rat :=
  match classify p with
  | .zero => some 0
  | .nar => none
  | .positive => some (fields p).value
  | .negative => some (-(fields (neg16 p)).value)

end Sys2Proof.Machine
end

