-- ==== Sys2Proof/Machine/FloatFormat.lean ====
section
/-! DEFINITION. The IEEE-754 layouts and constants the float ops consume (R105, R106), and the value of a float pattern. -/

namespace Sys2Proof.Machine

/-- The constants of one float width (R105, R106). -/
structure FloatFormat where
  /-- The width W. -/
  w : Nat
  /-- The mantissa field's width MW; the field is `b[MW-1:0]`. -/
  mw : Nat
  /-- The exponent field's width EW; the field is `b[W-2:MW]`. -/
  ew : Nat
  /-- The exponent bias BIAS. -/
  bias : Nat
  /-- Infinity: exponent all ones, mantissa 0. -/
  inf : Nat
  /-- 1.0. -/
  one : Nat
  /-- TMAX = float(2^28) (R106). -/
  tmax : Nat
  /-- TMIN = float(2^−28) (R106). -/
  tmin : Nat
  deriving DecidableEq, Repr

/-- binary32 (R105, R106). -/
def binary32 : FloatFormat where
  w := 32
  mw := 23
  ew := 8
  bias := 127
  inf := 0x7F800000
  one := 0x3F800000
  tmax := 0x4D800000
  tmin := 0x31800000

/-- binary64 (R105, R106). -/
def binary64 : FloatFormat where
  w := 64
  mw := 52
  ew := 11
  bias := 1023
  inf := 0x7FF0000000000000
  one := 0x3FF0000000000000
  tmax := 0x41B0000000000000
  tmin := 0x3E30000000000000

/-- The sign bit `b[W-1]` (R105). -/
def FloatFormat.sign (F : FloatFormat) (b : Nat) : Bool := b.testBit (F.w - 1)

/-- The sign-masked magnitude bits `b[W-2:0]` (R105, R107). -/
def FloatFormat.mag (F : FloatFormat) (b : Nat) : Nat := b % 2 ^ (F.w - 1)

/-- The exponent field `b[W-2:MW]` (R105). -/
def FloatFormat.expField (F : FloatFormat) (b : Nat) : Nat := F.mag b / 2 ^ F.mw

/-- The mantissa field `b[MW-1:0]` (R105). -/
def FloatFormat.mantField (F : FloatFormat) (b : Nat) : Nat := b % 2 ^ F.mw

/-- What a float pattern stands for (R105). -/
inductive FloatValue where
  | finite (x : Rat)
  | infinity (negative : Bool)
  | nan
  deriving DecidableEq, Repr

/-- A real number with its sign reinstated (R105). -/
def withSign (negative : Bool) (x : Rat) : Rat := if negative then -x else x

/-- R105: the value of a float pattern, normal, subnormal or zero, infinite, or NaN. -/
def FloatFormat.value (F : FloatFormat) (b : Nat) : FloatValue :=
  let X := F.expField b
  let m := F.mantField b
  if X = 2 ^ F.ew - 1 then
    if m = 0 then .infinity (F.sign b) else .nan
  else if X = 0 then
    .finite (withSign (F.sign b) ((2 : Rat) ^ (1 - (F.bias : Int)) * ((m : Rat) / 2 ^ F.mw)))
  else
    .finite (withSign (F.sign b) (scaled ((X : Int) - F.bias) m F.mw))

end Sys2Proof.Machine
end

