-- ==== Sys2Proof/Machine/Operands.lean ====
section
/-! DEFINITION. Operand assembly (R43): the low slice of `a` each op reads. Result placement (R45): where a result sits on
`y`. The bits of `a` above a slice are ignored (R44). -/

namespace Sys2Proof.Machine

/-- `a[15:0]`, a posit16 pattern (R43). -/
def opPattern (a : Word) : Pattern := a.extractLsb' 0 16

/-- `a[31:0]`, read as an unsigned integer or as a binary32 pattern (R43). -/
def opU32 (a : Word) : Nat := (a.extractLsb' 0 32).toNat

/-- `a[63:0]`, read as an unsigned integer or as a binary64 pattern (R43). -/
def opU64 (a : Word) : Nat := (a.extractLsb' 0 64).toNat

/-- `sint(a[31:0])` (R43). -/
def opI32 (a : Word) : Int := (a.extractLsb' 0 32).toInt

/-- `sint(a[63:0])` (R43). -/
def opI64 (a : Word) : Int := (a.extractLsb' 0 64).toInt

/-- `L = a[0]`, the last retained bit (R43, R71). -/
def opL (a : Word) : Bool := a.getLsbD 0

/-- `G = a[1]`, the guard bit (R43, R71). -/
def opG (a : Word) : Bool := a.getLsbD 1

/-- `S = a[2]`, the sticky bit (R43, R71). -/
def opS (a : Word) : Bool := a.getLsbD 2

/-- `zext_64(p)` for a posit pattern (R45). -/
def placePattern (p : Pattern) : Word := p.setWidth 64

/-- `zext_64(bits32(u))` for an unsigned result or a binary32 pattern (R45, R86, R115). -/
def placeU32 (u : Nat) : Word := (BitVec.ofNat 32 u).setWidth 64

/-- `bits64(u)` for an unsigned result or a binary64 pattern (R45, R87, R116). -/
def placeU64 (u : Nat) : Word := BitVec.ofNat 64 u

/-- `zext_64(bits32(v))` for a signed result: zero-extended, not sign-extended (R45). -/
def placeI32 (v : Int) : Word := (BitVec.ofInt 32 v).setWidth 64

/-- `bits64(v)` for a signed result (R45). -/
def placeI64 (v : Int) : Word := BitVec.ofInt 64 v

/-- `zext_64(b)` for one bit (R45). -/
def placeBit (b : Bool) : Word := (BitVec.ofBool b).setWidth 64

end Sys2Proof.Machine
end

