-- ==== Sys2Proof/Syntax.lean ====
section
/-! DEFINITION. The instructions: one constructor per row of the op map (R42), reserved op codes included. -/

namespace Sys2Proof

/-- One transaction (R40): an op of R42 and the whole 64-bit operand port `a`. Which low bits of `a` an op reads is no part
of its syntax; Machine/Operands.lean takes the slices (R43). -/
inductive Instr where
  /-- 0x0 ENCU32 (R74). -/
  | encU32 (a : Word)
  /-- 0x1 ENCU64 (R73). -/
  | encU64 (a : Word)
  /-- 0x2 DECU32 (R86). -/
  | decU32 (a : Word)
  /-- 0x3 DECU64 (R87). -/
  | decU64 (a : Word)
  /-- 0x4 ENCI32 (R96). -/
  | encI32 (a : Word)
  /-- 0x5 ENCI64 (R97). -/
  | encI64 (a : Word)
  /-- 0x6 DECI32 (R98). -/
  | decI32 (a : Word)
  /-- 0x7 DECI64 (R99). -/
  | decI64 (a : Word)
  /-- 0x8 ENCF32 (R108). -/
  | encF32 (a : Word)
  /-- 0x9 ENCF64 (R109). -/
  | encF64 (a : Word)
  /-- 0xA DECF32 (R115). -/
  | decF32 (a : Word)
  /-- 0xB DECF64 (R116). -/
  | decF64 (a : Word)
  /-- 0xC RNE (R71). -/
  | rne (a : Word)
  /-- 0xD REGX (R126). -/
  | regx (a : Word)
  /-- 0xE, reserved in every build (R46). -/
  | reserved0xE (a : Word)
  /-- 0xF, reserved in every build (R46). -/
  | reserved0xF (a : Word)
  deriving DecidableEq, Repr

end Sys2Proof
end

