-- ==== Sys2Proof/Decode.lean ====
section
/-! DEFINITION. Decoding of the transaction word T68 (R40, R42) and, after it, the encoder from the same op map. -/

namespace Sys2Proof

/-- Why a number is not decoded. -/
inductive DecodeError where
  /-- The number has a bit above bit 67: "Every transaction is exactly one such word. There is no other length" (R40). -/
  | longerThanT68
  deriving DecidableEq, Repr

/-- The operand field `T[63:0]` (R40). -/
def operandField (t : TWord) : Word := t.extractLsb' 0 64

/-- The op field `T[67:64]` (R40). -/
def opField (t : TWord) : OpCode := t.extractLsb' 64 4

/-- The op map of R42: the four bits of `op`, most significant first, choose the operation; nothing else does (R40). -/
def decodeOp (op : OpCode) (a : Word) : Instr :=
  match op.getLsbD 3, op.getLsbD 2, op.getLsbD 1, op.getLsbD 0 with
  | false, false, false, false => .encU32 a
  | false, false, false, true => .encU64 a
  | false, false, true, false => .decU32 a
  | false, false, true, true => .decU64 a
  | false, true, false, false => .encI32 a
  | false, true, false, true => .encI64 a
  | false, true, true, false => .decI32 a
  | false, true, true, true => .decI64 a
  | true, false, false, false => .encF32 a
  | true, false, false, true => .encF64 a
  | true, false, true, false => .decF32 a
  | true, false, true, true => .decF64 a
  | true, true, false, false => .rne a
  | true, true, false, true => .regx a
  | true, true, true, false => .reserved0xE a
  | true, true, true, true => .reserved0xF a

/-- The decoder: total on transaction words, since all 16 op codes have a row (R42). -/
def decode (t : TWord) : Instr := decodeOp (opField t) (operandField t)

/-- The decoder on any number: what is no 68-bit word is rejected by name (R40, R49). -/
def decodeNat (v : Nat) : Except DecodeError Instr :=
  if v < 2 ^ 68 then .ok (decode (BitVec.ofNat 68 v)) else .error .longerThanT68

/-- The decoder on bits numbered as spec/opcode_table.json numbers them: that numbering is the transaction word's own (R40),
so `w` is the word. The table gives each row all 68 bits, so the row's width plays no part. -/
def decodeTableWord (_nbits w : Nat) : Option Instr :=
  match decodeNat w with
  | .ok i => some i
  | .error _ => none

/-- The op code of each row of R42. -/
def Instr.opcode : Instr → OpCode
  | .encU32 _ => 0x0#4
  | .encU64 _ => 0x1#4
  | .decU32 _ => 0x2#4
  | .decU64 _ => 0x3#4
  | .encI32 _ => 0x4#4
  | .encI64 _ => 0x5#4
  | .decI32 _ => 0x6#4
  | .decI64 _ => 0x7#4
  | .encF32 _ => 0x8#4
  | .encF64 _ => 0x9#4
  | .decF32 _ => 0xA#4
  | .decF64 _ => 0xB#4
  | .rne _ => 0xC#4
  | .regx _ => 0xD#4
  | .reserved0xE _ => 0xE#4
  | .reserved0xF _ => 0xF#4

/-- The operand port of a transaction. -/
def Instr.operand : Instr → Word
  | .encU32 a | .encU64 a | .decU32 a | .decU64 a | .encI32 a | .encI64 a | .decI32 a | .decI64 a
  | .encF32 a | .encF64 a | .decF32 a | .decF64 a | .rne a | .regx a | .reserved0xE a | .reserved0xF a => a

/-- The encoder: `T = (op << 64) | a` (R40, R50). -/
def encode (i : Instr) : TWord := i.opcode ++ i.operand

end Sys2Proof
end

