-- ==== Sys2Proof/Config.lean ====
section
/-! DEFINITION. The build parameters of R6, and the free values: the values the spec calls unspecified. -/

namespace Sys2Proof

/-- The parameters of R6, fixed when the block is built (R18). `n = 16`, `es = 1` and the port widths are fixed (R2, R6)
and are no parameters. A machine state carries its build, so that one model covers every build (notes/assumptions/1.md). -/
structure Build where
  /-- HAS_SIGNED_ADAPTER (R95): whether op codes 0x4 to 0x7 exist. -/
  hasSignedAdapter : Bool := true
  /-- LATENCY (R22, R23): the number of pipeline stages; 0 is the combinational block. -/
  latency : Nat := 0
  /-- NAN_F32 (R115): the binary32 NaN that NaR decodes to. -/
  nanF32 : BitVec 32 := 0x7FC00000#32
  /-- NAN_F64 (R116): the binary64 NaN that NaR decodes to. -/
  nanF64 : BitVec 64 := 0x7FF8000000000000#64
  deriving DecidableEq, Repr

/-- The build that every parameter's default gives (R6). -/
def Build.default : Build := {}

namespace Config

/-- FREE VALUE: what `res_j` holds after a reset edge or at power-up (R26: "any value"). Each unspecified stage value is this
constant at a number of its own; nothing in Lean can evaluate it (notes/assumptions/2.md). -/
opaque freeRes : Nat → Word

/-- FREE VALUE: what `ill_j` holds after a reset edge or at power-up (R26; notes/assumptions/2.md). -/
opaque freeIll : Nat → Bool

/-- FREE VALUE: what `vld_j` holds at power-up, before the first reset (R26, R151; notes/assumptions/2.md). -/
opaque freeVld : Nat → Bool

end Config

end Sys2Proof
end

