-- ==== Sys2Proof/Machine/State.lean ====
section
/-! DEFINITION. What the machine holds: the build, the input ports and what the host drives on them next, the pipeline
stages, and the settled outputs of a combinational build. The reasons a step can stop, and the state after reset. -/

namespace Sys2Proof.Machine

/-- One value of the input ports, "all sampled together as one transaction" (R20). `in_valid` and `rst` exist only when
LATENCY ≥ 1 (R24); a combinational build ignores both fields. `clk` is no field: a step of a pipelined build is one rising
edge of it (R23). -/
structure Ports where
  op : BitVec 4
  a : BitVec 64
  inValid : Bool
  rst : Bool
  deriving DecidableEq, Repr

/-- The pair (y, illegal) that `EXEC(op, a)` gives (R10, R42). -/
structure Result where
  y : BitVec 64
  illegal : Bool
  deriving DecidableEq, Repr

/-- The registers of one pipeline stage: `vld_j`, `res_j` and `ill_j` (R23). -/
structure Stage where
  vld : Bool
  res : BitVec 64
  ill : Bool
  deriving DecidableEq, Repr

/-- The state of the block and of the wires into it. There is no register, program counter, flag, control register or memory
(R15 to R19, R27, R30): INVENTORY.md, "State", lists every field with its rule. -/
structure State where
  /-- The parameters of R6, fixed when the block is built; no op reads or writes them (R18). -/
  build : Build
  /-- What the input ports carry now (R20). -/
  ports : Ports
  /-- What the host drives on the input ports at the coming steps, oldest first (R50, "Program"; notes/assumptions/3.md). -/
  script : List Ports
  /-- The stages 1 to LATENCY, stage 1 first (R23); none when LATENCY = 0 (R26). -/
  stages : List Stage
  /-- The values `y` and `illegal` have settled to in a combinational build (R22, R153); a pipelined build drives its output
  ports from stage LATENCY instead. -/
  settled : Result
  /-- The model's own counter: the number of the next unused free value (notes/assumptions/2.md). -/
  freeIx : Nat
  deriving DecidableEq, Repr

/-- Reasons to stop with a fault: none. "`fault` and `stuck` are not used: no case in this block halts or faults"
(93_implementation_defined.md; R135, R140). -/
inductive Fault where
  deriving DecidableEq, Repr

/-- Reasons to give an instruction no meaning. -/
inductive Refusal where
  /-- Raised only by an arm of `exec` whose instruction has no meaning yet; no arm of this model raises it. Safe. -/
  | notModelled (mnemonic : String)
  deriving DecidableEq, Repr

/-- The block after reset, in the default build (R6). LATENCY is 0, so there is no stage and "any state when LATENCY = 0:
none exists" (R26); the outputs are `EXEC(op, a)` (R150) of what the host drives, here op 0 and operand 0, whose result is 0
(R74; notes/assumptions/4.md). The host has nothing more to drive. -/
def State.reset : State where
  build := Build.default
  ports := { op := 0x0#4, a := 0x0#64, inValid := false, rst := false }
  script := []
  stages := []
  settled := { y := 0x0#64, illegal := false }
  freeIx := 0

end Sys2Proof.Machine
end

