-- ==== Sys2Proof/Machine/Ops.lean ====
section
/-! DEFINITION. The named operations over the state: driving the input ports, delivering a result, the one event
ILLEGAL_OP, the reset edge, and what the host sees on the output ports. -/

namespace Sys2Proof.Machine

/-! ### The input ports -/

/-- The transaction word on the ports, `T = op ‖ a` (R40). -/
def Ports.word (p : Ports) : TWord := p.op ++ p.a

/-- Port values that present the transaction word `t` (R20). -/
def Ports.presenting (t : TWord) : Ports :=
  { op := opField t, a := operandField t, inValid := true, rst := false }

/-- What the ports carry once the host has nothing more to present: `op` and `a` keep their values, no transaction is
presented and reset is not asserted (notes/assumptions/3.md). -/
def Ports.quiet (p : Ports) : Ports := { p with inValid := false, rst := false }

/-- The host drives its next port values. -/
def State.drive (s : State) : State :=
  match s.script with
  | [] => { s with ports := s.ports.quiet }
  | p :: rest => { s with ports := p, script := rest }

/-! ### Delivering a result -/

/-- The stages after an edge without reset: stage 1 takes `in_valid` and the EXEC pair, every other stage its predecessor
(R23). -/
def shiftStages (latency : Nat) (vld : Bool) (r : Result) (stages : List Stage) : List Stage :=
  ({ vld := vld, res := r.y, ill := r.illegal } :: stages).take latency

/-- Hand the EXEC pair on: to the output ports of a combinational build (R22), to stage 1 of a pipelined one (R23). -/
def State.deliver (s : State) (r : Result) : State :=
  if s.build.latency = 0 then { s with settled := r }
  else { s with stages := shiftStages s.build.latency s.ports.inValid r s.stages }

/-- An op that has a meaning completes: its result and `illegal` 0 (R135). -/
def State.complete (s : State) (y : Word) : Host.Outcome State Fault Refusal :=
  .next (s.deliver { y := y, illegal := false })

/-- The one event, ILLEGAL_OP (R136): "It drives y = 0", `illegal` is 1, and it travels with its transaction. It saves no
state, changes no mode and redirects nothing (R140); there is no return from it (R141), and the machine goes on. The host
takes no result from it (`State.hostView`; notes/assumptions/5.md). -/
def State.raiseIllegalOp (s : State) : Host.Outcome State Fault Refusal :=
  .next (s.deliver { y := 0x0#64, illegal := true })

/-- An op of the signed group: it completes in a build with the adapter and is reserved in one without (R47, R95). -/
def State.completeSigned (s : State) (y : Word) : Host.Outcome State Fault Refusal :=
  if s.build.hasSignedAdapter then s.complete y else s.raiseIllegalOp

/-! ### Reset -/

/-- `n` stages whose data are unspecified, with the valid bit that `vld` gives at each stage's free number (R26). -/
def freeStages (vld : Nat → Bool) (first : Nat) : Nat → List Stage
  | 0 => []
  | n + 1 => { vld := vld first, res := Config.freeRes first, ill := Config.freeIll first } :: freeStages vld (first + 1) n

/-- A rising edge with `rst = 1` (R23, R150): every `vld_j` becomes 0, every `res_j` and `ill_j` unspecified, and the
transaction on the ports is discarded. -/
def State.resetEdge (s : State) : State :=
  { s with
    stages := freeStages (fun _ => false) s.freeIx s.build.latency
    freeIx := s.freeIx + s.build.latency }

/-- Whether this step is a reset edge: `rst` exists only when LATENCY ≥ 1 (R24, R150). -/
def State.inReset (s : State) : Bool := s.build.latency != 0 && s.ports.rst

/-- A block of any build right after a reset (R26); `State.reset` is this for the default build. Its free values are numbered from 0.
Whether the unspecified stage values of two blocks are related is not stated (R26, R144): DESIGN CHOICE, every block numbers its own from
0 in the same constants, so two blocks reset alike hold equal ones, and no claim may rest on it (notes/assumptions/2.md). -/
def State.resetOf (b : Build) : State :=
  { State.reset with
    build := b
    stages := freeStages (fun _ => false) 0 b.latency
    freeIx := b.latency }

/-- A block of any build at power-up, "Before the first reset": every stage register is unspecified, `vld_j` too
(R26, R151). -/
def State.powerUp (b : Build) : State :=
  { State.resetOf b with stages := freeStages Config.freeVld 0 b.latency }

/-! ### The output ports -/

/-- Stage LATENCY, which drives the output ports of a pipelined build (R23). -/
def State.lastStage (s : State) : Option Stage := s.stages.getLast?

/-- The output port `y` (R21): the settled value when LATENCY = 0 (R22), else `res_L` (R23). -/
def State.y (s : State) : Word :=
  match s.lastStage with
  | some st => st.res
  | none => s.settled.y

/-- The output port `illegal` (R21): the settled value when LATENCY = 0 (R22), else `ill_L` (R23). -/
def State.illegal (s : State) : Bool :=
  match s.lastStage with
  | some st => st.ill
  | none => s.settled.illegal

/-- The output port `out_valid`, `vld_L`; absent when LATENCY = 0 (R21, R23, R24). -/
def State.outValid (s : State) : Option Bool := s.lastStage.map Stage.vld

/-- What the host takes from the output ports. -/
inductive HostView where
  /-- `out_valid` is 0: `y` and `illegal` hold no result (R21, R26). -/
  | nothing
  /-- The result of a transaction. -/
  | result (y : BitVec 64)
  /-- ILLEGAL_OP: the transaction is refused, and `y` is no result (R46, R136). -/
  | illegalOp
  deriving DecidableEq, Repr

/-- What the host takes from the ports now: nothing while `out_valid` is 0, no result where `illegal` is 1 (R136: "does not
treat y = 0 as a result"). -/
def State.hostView (s : State) : HostView :=
  if s.outValid = some false then .nothing
  else if s.illegal then .illegalOp
  else .result s.y

end Sys2Proof.Machine
end

