-- ==== Sys2Proof/Machine/FloatDecoder.lean ====
section
/-! DEFINITION. The float decoder (45_float_decoder.md): DECF32 and DECF64. -/

namespace Sys2Proof.Machine

/-- R114: `dec_float_W(p)`, with the build's NaN pattern of that width. Exact: no rounding (R117). -/
def decFloat (F : FloatFormat) (nan : Nat) (p : Pattern) : Nat :=
  if p = ZERO then 0
  else if p = NAR then nan
  else
    let x := fields (magnitude p)
    let X := (x.scale + F.bias).toNat
    let m := x.f <<< (F.mw - x.fw)
    ((signBit p).toNat <<< (F.w - 1)) ||| (X <<< F.mw) ||| m

/-- The result of DECF32 in a build (R115). -/
def resDecF32 (b : Build) (a : Word) : Word := placeU32 (decFloat binary32 b.nanF32.toNat (opPattern a))

/-- The result of DECF64 in a build (R116). -/
def resDecF64 (b : Build) (a : Word) : Word := placeU64 (decFloat binary64 b.nanF64.toNat (opPattern a))

/-- DECF32 (R115). -/
def execDecF32 (a : Word) (s : State) : Host.Outcome State Fault Refusal := s.complete (resDecF32 s.build a)

/-- DECF64 (R116). -/
def execDecF64 (a : Word) (s : State) : Host.Outcome State Fault Refusal := s.complete (resDecF64 s.build a)

end Sys2Proof.Machine
end

