-- ==== Sys2Proof/Machine/Flags.lean ====
section
/-! DEFINITION. The block has no status flag, condition code or sticky bit (R19). Its one status output is `illegal`, and the
one rounding rule needs three bits of the value it rounds; both are computed here. -/

namespace Sys2Proof.Machine

/-- R136: ILLEGAL_OP "is raised exactly when `op` is reserved in the build: 0xE or 0xF in every build; 0x4–0x7 when
HAS_SIGNED_ADAPTER = false". -/
def illegalIn (b : Build) (op : OpCode) : Bool :=
  (op == 0xE#4 || op == 0xF#4) || (!b.hasSignedAdapter && (0x4#4 ≤ op && op ≤ 0x7#4))

/-- R70: `rne_inc(L, G, S) = G AND (L OR S)`, "the single rounding rule used by every encode path". -/
def rneInc (L G S : Bool) : Bool := G && (L || S)

/-- The guard bit of `v` when its low `d` bits are discarded: `v[d-1]`, and 0 when nothing is discarded (R73, R85). -/
def guardBit (v d : Nat) : Bool := decide (1 ≤ d) && v.testBit (d - 1)

/-- The sticky bit of `v` when its low `d` bits are discarded: whether `v[d-2:0]` is non-zero, and 0 when fewer than two bits
are discarded (R73, R85). -/
def stickyBit (v d : Nat) : Bool := decide (2 ≤ d) && v % 2 ^ (d - 1) != 0

/-- `body + rne_inc(L, G, S)` with `L = body[0]`: step 5 of the encoders and the last step of the decoder (R72, R73, R85). -/
def roundUp (body : Nat) (G S : Bool) : Nat := body + (rneInc (body.testBit 0) G S).toNat

end Sys2Proof.Machine
end

