-- ==== Sys2Proof/Machine/Rounding.lean ====
section
/-! DEFINITION. The shared packing routine `assemble` (R72). -/

namespace Sys2Proof.Machine

/-- `M[n-1] ‖ M[n-2] ‖ … ‖ M[0]`, the first bit first (R72). -/
def bitsDown (M : Nat) : Nat → List Bool
  | 0 => []
  | n + 1 => M.testBit n :: bitsDown M n

/-- The number a string of bits writes, "read with the first bit most significant" (R72). -/
def readBits (str : List Bool) : Nat := str.foldl (fun n b => 2 * n + b.toNat) 0

/-- The regime of value `k` with its terminator: `k+1` ones and a zero, or `-k` zeros and a one (R72). -/
def regimeBits (k : Int) : List Bool :=
  if 0 ≤ k then List.replicate (k.toNat + 1) true ++ [false] else List.replicate (-k).toNat false ++ [true]

/-- Append 0 bits to the end "until it is at least 16 bits long" (R72). -/
def padTo16 (str : List Bool) : List Bool := str ++ List.replicate (16 - str.length) false

/-- The regime, exponent and fraction bits of the number `2^s × (1 + M / 2^mw)`, before padding and rounding (R72). -/
def positBits (s : Int) (M mw : Nat) : List Bool :=
  regimeBits (s / 2) ++ decide (s % 2 = 1) :: bitsDown M mw

/-- R72: pack the positive number of scale `s` and `mw`-bit fraction `M` into a positive pattern, "rounding to nearest with
ties to even at the bit level". Meant for −28 ≤ s ≤ 27. -/
def assemble (s : Int) (M mw : Nat) : Pattern :=
  let str := padTo16 (positBits s M mw)
  BitVec.ofNat 16 (roundUp (readBits (str.take 15)) (str.getD 15 false) ((str.drop 16).any id))

end Sys2Proof.Machine
end

