-- ==== Sys2Proof/Machine/FloatEncoder.lean ====
section
/-! DEFINITION. The float encoder (44_float_encoder.md): ENCF32 and ENCF64. -/

namespace Sys2Proof.Machine

/-- R107: `enc_float_W(b)`. "The DOC lists the classification steps in this order, and the first that matches decides." -/
def encFloat (F : FloatFormat) (b : Nat) : Pattern :=
  let sgn := F.sign b
  let mag := F.mag b
  if mag = 0 then ZERO
  else if F.inf ≤ mag then NAR
  else if F.tmax ≤ mag then (if sgn then MIN else MAX)
  else if mag = F.one then (if sgn then neg16 ONE else ONE)
  else if mag ≤ F.tmin then (if sgn then neg16 MIN_POSITIVE else MIN_POSITIVE)
  else
    let p := assemble ((F.expField b : Int) - F.bias) (F.mantField b) F.mw
    if sgn then neg16 p else p

/-- The result of ENCF32 (R108). -/
def resEncF32 (a : Word) : Word := placePattern (encFloat binary32 (opU32 a))

/-- The result of ENCF64 (R109). -/
def resEncF64 (a : Word) : Word := placePattern (encFloat binary64 (opU64 a))

/-- ENCF32 (R108). -/
def execEncF32 (a : Word) (s : State) : Host.Outcome State Fault Refusal := s.complete (resEncF32 a)

/-- ENCF64 (R109). -/
def execEncF64 (a : Word) (s : State) : Host.Outcome State Fault Refusal := s.complete (resEncF64 a)

end Sys2Proof.Machine
end

