-- ==== Sys2Proof/Machine/MagnitudeDecoder.lean ====
section
/-! DEFINITION. The magnitude decoder (42_magnitude_decoder.md): DECU32 and DECU64. -/

namespace Sys2Proof.Machine

/-- Step 4 of R85 and what follows it: the number `N` with the implicit leading one, value(p) = N × 2^(s − fw), rounded to an
integer. Meant for patterns above 0x5400, whose scale is 1 to 28. -/
def decRounded (x : Fields) : Nat :=
  let s := x.scale.toNat
  let N := (1 <<< x.fw) ||| x.f
  if x.fw ≤ s then N <<< (s - x.fw)
  else
    let d := x.fw - s
    roundUp (N >>> d) (guardBit N d) (stickyBit N d)

/-- R85: `dec_mag(p)`, the §4.2 algorithm, for 0x0000 ≤ p ≤ 0x7FFF. -/
def decMag (p : Pattern) : Nat :=
  if p ≤ 0x3000#16 then 0
  else if p < 0x4800#16 then 1
  else if p ≤ 0x5400#16 then 2
  else decRounded (fields p)

/-- The unsigned integer of a pattern: "NaR and negative patterns give 0" (R86, R87). -/
def decUnsigned (p : Pattern) : Nat := if 0x8000#16 ≤ p then 0 else decMag p

/-- The result of DECU32 (R86). -/
def resDecU32 (a : Word) : Word := placeU32 (decUnsigned (opPattern a))

/-- The result of DECU64 (R87). -/
def resDecU64 (a : Word) : Word := placeU64 (decUnsigned (opPattern a))

/-- DECU32 (R86). -/
def execDecU32 (a : Word) (s : State) : Host.Outcome State Fault Refusal := s.complete (resDecU32 a)

/-- DECU64 (R87). -/
def execDecU64 (a : Word) (s : State) : Host.Outcome State Fault Refusal := s.complete (resDecU64 a)

end Sys2Proof.Machine
end

