-- ==== Sys2Proof/Machine/MagnitudeEncoder.lean ====
section
/-! DEFINITION. The magnitude encoder (41_magnitude_encoder.md): ENCU32 and ENCU64. -/

namespace Sys2Proof.Machine

/-- `msb(v)` for v > 0: the index of the most significant set bit (R8). The method is not architectural (R76). -/
def msb (v : Nat) : Nat := Nat.log2 v

/-- Step 4 of R73: the regime, exponent and fraction of `u` put together in `p[14:0]`, and the guard and sticky bits of what
is cut off. Meant for 2 ≤ u ≤ 0x02FF_FFFF. -/
def encBody (u : Nat) : Nat × Bool × Bool :=
  let m := msb u
  let k := m >>> 1
  let e := m &&& 1
  let fw := 12 - k
  let R := 0x7FFF ^^^ (0x3FFF >>> k)
  let E := e <<< (12 - k)
  let rest := u % 2 ^ m
  if fw ≤ m then
    let d := m - fw
    (R ||| E ||| (rest >>> d), guardBit rest d, stickyBit rest d)
  else
    (R ||| E ||| (rest <<< (fw - m)), false, false)

/-- R73: `enc_mag(u)`, the §4.1 algorithm, for 0 ≤ u < 2^64. -/
def encMag (u : Nat) : Pattern :=
  if 0x08000000 < u then MAX
  else if 0x02FFFFFF < u then SECOND_LARGEST
  else if u < 2 then BitVec.ofNat 16 (u <<< 14)
  else
    let b := encBody u
    BitVec.ofNat 16 (roundUp b.1 b.2.1 b.2.2)

/-- The result of ENCU32 (R74). -/
def resEncU32 (a : Word) : Word := placePattern (encMag (opU32 a))

/-- The result of ENCU64 (R73). -/
def resEncU64 (a : Word) : Word := placePattern (encMag (opU64 a))

/-- ENCU32 (R74). -/
def execEncU32 (a : Word) (s : State) : Host.Outcome State Fault Refusal := s.complete (resEncU32 a)

/-- ENCU64 (R73). -/
def execEncU64 (a : Word) (s : State) : Host.Outcome State Fault Refusal := s.complete (resEncU64 a)

end Sys2Proof.Machine
end

