-- ==== Sys2Proof/Machine/Reserved.lean ====
section
/-! DEFINITION. The op codes reserved in every build (R46): the ports show y = 0 and `illegal` = 1 for every operand, and the
machine goes on (R136, R140, R141). -/

namespace Sys2Proof.Machine

/-- Op code 0xE (R46). -/
def execReserved0xE (_a : Word) (s : State) : Host.Outcome State Fault Refusal := s.raiseIllegalOp

/-- Op code 0xF (R46). -/
def execReserved0xF (_a : Word) (s : State) : Host.Outcome State Fault Refusal := s.raiseIllegalOp

end Sys2Proof.Machine
end

