-- ==== Sys2Proof/Machine/SignedAdapter.lean ====
section
/-! DEFINITION. The optional signed integer adapter (43_signed_adapter.md): ENCI32, ENCI64, DECI32 and DECI64. In a build
without it the four op codes are reserved (R47, R95). -/

namespace Sys2Proof.Machine

/-- R96, R97: the signed encoder. Strictly below −134 217 728 the result is MIN; that value itself takes the general path
(90_conflicts.md C1). -/
def encSigned (i : Int) : Pattern :=
  if i < -134217728 then MIN
  else if i < 0 then neg16 (encMag i.natAbs)
  else encMag i.natAbs

/-- R98, R99: the signed decoder. NaR gives 0, "a deliberate, preserved quirk". -/
def decSigned (p : Pattern) : Int :=
  if p = NAR then 0
  else if NAR < p then -(decMag (neg16 p) : Int)
  else decMag p

/-- The result of ENCI32 (R96). -/
def resEncI32 (a : Word) : Word := placePattern (encSigned (opI32 a))

/-- The result of ENCI64 (R97). -/
def resEncI64 (a : Word) : Word := placePattern (encSigned (opI64 a))

/-- The result of DECI32 (R98). -/
def resDecI32 (a : Word) : Word := placeI32 (decSigned (opPattern a))

/-- The result of DECI64 (R99). -/
def resDecI64 (a : Word) : Word := placeI64 (decSigned (opPattern a))

/-- ENCI32 (R96). -/
def execEncI32 (a : Word) (s : State) : Host.Outcome State Fault Refusal := s.completeSigned (resEncI32 a)

/-- ENCI64 (R97). -/
def execEncI64 (a : Word) (s : State) : Host.Outcome State Fault Refusal := s.completeSigned (resEncI64 a)

/-- DECI32 (R98). -/
def execDecI32 (a : Word) (s : State) : Host.Outcome State Fault Refusal := s.completeSigned (resDecI32 a)

/-- DECI64 (R99). -/
def execDecI64 (a : Word) (s : State) : Host.Outcome State Fault Refusal := s.completeSigned (resDecI64 a)

end Sys2Proof.Machine
end

