-- ==== Sys2Proof/Machine/SubBlocks.lean ====
section
/-! DEFINITION. The two sub-blocks with an op of their own: the rounding logic, RNE (R71), and the regime extractor, REGX
(R126). -/

namespace Sys2Proof.Machine

/-- The result of RNE (R71). -/
def resRne (a : Word) : Word := placeBit (rneInc (opL a) (opG a) (opS a))

/-- `F12`, the fraction left-aligned in 12 bits (R126). -/
def fraction12 (x : Fields) : Nat := x.f <<< (12 - x.fw)

/-- R126: the packed word of the regime extractor. -/
def regxWord (p : Pattern) : Word :=
  if p = ZERO ∨ p = NAR then
    (placeBit (signBit p) <<< 28) ||| (1#64 <<< 29)
  else
    let q := magnitude p
    let x := fields q
    (BitVec.ofInt 5 x.k).setWidth 64
      ||| (BitVec.ofNat 64 x.e <<< 5)
      ||| ((BitVec.ofInt 6 x.scale).setWidth 64 <<< 6)
      ||| (BitVec.ofNat 64 x.fw <<< 12)
      ||| (BitVec.ofNat 64 (fraction12 x) <<< 16)
      ||| (placeBit (signBit p) <<< 28)
      ||| (placeBit (expPresent q) <<< 30)

/-- The result of REGX (R126). -/
def resRegx (a : Word) : Word := regxWord (opPattern a)

/-- RNE (R71). -/
def execRne (a : Word) (s : State) : Host.Outcome State Fault Refusal := s.complete (resRne a)

/-- REGX (R126). -/
def execRegx (a : Word) (s : State) : Host.Outcome State Fault Refusal := s.complete (resRegx a)

end Sys2Proof.Machine
end

