-- ==== Sys2Proof/Machine/Dispatch.lean ====
section
/-! DEFINITION. The meaning of every instruction, one arm per constructor (R42). -/

namespace Sys2Proof.Machine

def exec (i : Instr) (s : State) : Host.Outcome State Fault Refusal :=
  match i with
  | .encU32 a => Sys2Proof.Machine.execEncU32 a s
  | .encU64 a => Sys2Proof.Machine.execEncU64 a s
  | .decU32 a => Sys2Proof.Machine.execDecU32 a s
  | .decU64 a => Sys2Proof.Machine.execDecU64 a s
  | .encI32 a => Sys2Proof.Machine.execEncI32 a s
  | .encI64 a => Sys2Proof.Machine.execEncI64 a s
  | .decI32 a => Sys2Proof.Machine.execDecI32 a s
  | .decI64 a => Sys2Proof.Machine.execDecI64 a s
  | .encF32 a => Sys2Proof.Machine.execEncF32 a s
  | .encF64 a => Sys2Proof.Machine.execEncF64 a s
  | .decF32 a => Sys2Proof.Machine.execDecF32 a s
  | .decF64 a => Sys2Proof.Machine.execDecF64 a s
  | .rne a => Sys2Proof.Machine.execRne a s
  | .regx a => Sys2Proof.Machine.execRegx a s
  | .reserved0xE a => Sys2Proof.Machine.execReserved0xE a s
  | .reserved0xF a => Sys2Proof.Machine.execReserved0xF a s

end Sys2Proof.Machine
end

