-- ==== Sys2Proof/Machine/Step.lean ====
section
/-! DEFINITION. One step: the host drives its next port values, and the block responds to them. A step of a combinational
build is one transaction (R22, R40); a step of a pipelined build is one rising edge of `clk` (R23). -/

namespace Sys2Proof.Machine

/-- The response to the port values as they stand: a reset edge where `rst` exists and is 1 (R150), else the transaction's
own meaning. -/
def State.respond (s : State) : Host.Outcome State Fault Refusal :=
  if s.inReset then .next s.resetEdge else exec (decode s.ports.word) s

/-- One step (R22, R23). -/
def step (s : State) : Host.Outcome State Fault Refusal := s.drive.respond

/-- `s` with the transaction word `w` as what the host presents next: it is put before everything the host already has to
present. The numbering of spec/opcode_table.json is that of the transaction word (R40). A number of 2^68 or more is no transaction word
and the spec says nothing of presenting one: DESIGN CHOICE, its low 68 bits are presented, unlike `decodeNat`, which rejects it
(notes/assumptions/8.md). -/
def State.withFetchWord (s : State) (_nbits w : Nat) : State :=
  { s with script := Ports.presenting (BitVec.ofNat 68 w) :: s.script }

end Sys2Proof.Machine
end

