-- ==== Sys2Proof/Machine/HostLine.lean ====
section
/-! DEFINITION. The host's notation for transactions (R50): one line per transaction,
`[<name> =] <MNEMONIC> <operand>   ; comment`. Names are the host's and no state of the block; no line stands for more than one
transaction (R51). -/

namespace Sys2Proof.Machine

/-- The mnemonics of R42; a reserved op code has none. -/
inductive Mnemonic where
  | encU32 | encU64 | decU32 | decU64 | encI32 | encI64 | decI32 | decI64
  | encF32 | encF64 | decF32 | decF64 | rne | regx
  deriving DecidableEq, Repr

/-- The transaction a mnemonic and an operand port value make. -/
def Mnemonic.instr : Mnemonic → Word → Instr
  | .encU32 => .encU32
  | .encU64 => .encU64
  | .decU32 => .decU32
  | .decU64 => .decU64
  | .encI32 => .encI32
  | .encI64 => .encI64
  | .decI32 => .decI32
  | .decI64 => .decI64
  | .encF32 => .encF32
  | .encF64 => .encF64
  | .decF32 => .decF32
  | .decF64 => .decF64
  | .rne => .rne
  | .regx => .regx

/-- The width of the operand slice of R43. -/
def Mnemonic.sliceWidth : Mnemonic → Nat
  | .encU32 | .encI32 | .encF32 => 32
  | .encU64 | .encI64 | .encF64 => 64
  | .decU32 | .decU64 | .decI32 | .decI64 | .decF32 | .decF64 | .regx => 16
  | .rne => 3

/-- "A negative literal is allowed only for ENCI32 and ENCI64" (R50). -/
def Mnemonic.takesNegative : Mnemonic → Bool
  | .encI32 | .encI64 => true
  | .encU32 | .encU64 | .decU32 | .decU64 | .decI32 | .decI64 | .encF32 | .encF64 | .decF32 | .decF64 | .rne | .regx => false

/-- An operand: an integer literal, or a name "bound by an earlier line" (R50). -/
inductive HostOperand where
  | literal (v : Int)
  | name (n : String)
  deriving DecidableEq, Repr

/-- One line of the notation (R50). -/
structure HostLine where
  bind : Option String
  op : Mnemonic
  operand : HostOperand
  deriving DecidableEq, Repr

/-- The host's names, each with the (y, illegal) it is bound to (R50). Which binding a name means when two earlier lines bind it is not
stated (R50 says only "bound by an earlier line"): DESIGN CHOICE, the latest; the list holds it first (notes/assumptions/7.md). -/
abbrev HostNames := List (String × Result)

/-- The operand port value of a line. A literal "sets the operand slice of rule R43 to bitsW(literal), W the slice width, and
all other bits of `a` to 0"; a name means "`a <- y` of that line" (R50). None for a negative literal where none is allowed, for a
name no line bound, and for a name bound by an ILLEGAL_OP, whose y is no result (R136; notes/assumptions/7.md). Whether case matters
in a name is not stated (R50 says that it does not in a mnemonic): DESIGN CHOICE, it does, and `x` and `X` are two names
(notes/assumptions/7.md). Whether `-0` is a negative literal is not stated: DESIGN CHOICE, a literal is negative when its value is,
so `-0` is the literal 0 and any op takes it (notes/assumptions/7.md). -/
def HostLine.operandPort (names : HostNames) (l : HostLine) : Option Word :=
  match l.operand with
  | .literal v =>
    if v < 0 ∧ l.op.takesNegative = false then none
    else some ((BitVec.ofInt l.op.sliceWidth v).setWidth 64)
  | .name n =>
    match names.lookup n with
    | some r => if r.illegal then none else some r.y
    | none => none

/-- The transaction of a line. -/
def HostLine.instr (names : HostNames) (l : HostLine) : Option Instr := (l.operandPort names).map l.op.instr

/-- "The encoding of a line is its transaction word T = (op << 64) | a" (R50). -/
def HostLine.word (names : HostNames) (l : HostLine) : Option TWord := (l.instr names).map encode

/-! ### Reading a line of text -/

/-- A mnemonic of R42 or an alias of R50, in lower case. -/
def mnemonicTable : List (String × Mnemonic) :=
  [("encu32", .encU32), ("encu64", .encU64), ("decu32", .decU32), ("decu64", .decU64),
   ("enci32", .encI32), ("enci64", .encI64), ("deci32", .decI32), ("deci64", .decI64),
   ("encf32", .encF32), ("encf64", .encF64), ("decf32", .decF32), ("decf64", .decF64),
   ("rne", .rne), ("regx", .regx)] ++
  [("encode_unsigned32", .encU32), ("encode_unsigned64", .encU64), ("encode_signed32", .encI32),
   ("decode_signed32", .decI32), ("decode_signed64", .decI64), ("decode_float_as_f64", .decF64)]

/-- "Case does not matter" (R50). -/
def parseMnemonic (cs : List Char) : Option Mnemonic := mnemonicTable.lookup (String.ofList (cs.map Char.toLower))

/-- The value of a digit character. -/
def digitValue (c : Char) : Option Nat :=
  if '0' ≤ c ∧ c ≤ '9' then some (c.toNat - 48)
  else if 'a' ≤ c ∧ c ≤ 'f' then some (c.toNat - 87)
  else if 'A' ≤ c ∧ c ≤ 'F' then some (c.toNat - 55)
  else none

/-- The digits of a numeral in a base, `_` separators left out; none at a character that is no digit of the base. Where in a
literal a `_` may stand is not stated (R7, R50): DESIGN CHOICE, anywhere after the sign and the base mark, leading, trailing and
doubled ones too (notes/assumptions/7.md). -/
def digitsOf (base : Nat) : List Char → Option (List Nat)
  | [] => some []
  | c :: cs =>
    if c = '_' then digitsOf base cs
    else
      match digitValue c, digitsOf base cs with
      | some d, some ds => if d < base then some (d :: ds) else none
      | _, _ => none

/-- A numeral with at least one digit. -/
def parseNat (base : Nat) (cs : List Char) : Option Nat :=
  match digitsOf base cs with
  | some (d :: ds) => some ((d :: ds).foldl (fun n x => base * n + x) 0)
  | _ => none

/-- "An integer literal: decimal, which may be negative; `0x` hex; or `0b` binary, with optional `_`" (R50). -/
def parseLiteral : List Char → Option Int
  | '0' :: 'x' :: cs => (parseNat 16 cs).map Int.ofNat
  | '0' :: 'b' :: cs => (parseNat 2 cs).map Int.ofNat
  | '-' :: cs => (parseNat 10 cs).map (fun n => -(n : Int))
  | cs => (parseNat 10 cs).map Int.ofNat

/-- The characters a host name is made of (notes/assumptions/7.md). -/
def isNameStart (c : Char) : Bool := c.isAlpha || c == '_'

/-- A host name: a letter or `_`, then letters, digits and `_`, that is no literal. R50 gives no grammar: DESIGN CHOICE, and `_5`,
which reads as the literal 5, is no name, so that no line binds a name that no line can use (notes/assumptions/7.md). -/
def parseName : List Char → Option String
  | [] => none
  | c :: cs =>
    if isNameStart c && cs.all (fun d => isNameStart d || d.isDigit) && (parseLiteral (c :: cs)).isNone then
      some (String.ofList (c :: cs))
    else none

/-- An operand: a literal where the text is one, else a name. -/
def parseOperand (cs : List Char) : Option HostOperand :=
  match parseLiteral cs with
  | some v => some (.literal v)
  | none => (parseName cs).map .name

/-- Cut a line into its words, `=` a word of its own; `word` is the word being read, last character first. -/
def wordsOf (word : List Char) : List Char → List (List Char)
  | [] => if word = [] then [] else [word.reverse]
  | c :: cs =>
    let done := if word = [] then [] else [word.reverse]
    if c = ';' then done
    else if c.isWhitespace then done ++ wordsOf [] cs
    else if c = '=' then done ++ ['='] :: wordsOf [] cs
    else wordsOf (c :: word) cs

/-- Read one line (R50); none where the text is no line of the notation. -/
def parseLine (text : String) : Option HostLine :=
  match wordsOf [] text.toList with
  | [op, arg] =>
    match parseMnemonic op, parseOperand arg with
    | some m, some x => some { bind := none, op := m, operand := x }
    | _, _ => none
  | [n, ['='], op, arg] =>
    match parseName n, parseMnemonic op, parseOperand arg with
    | some b, some m, some x => some { bind := some b, op := m, operand := x }
    | _, _, _ => none
  | _ => none

end Sys2Proof.Machine
end

