-- ==== Sys2Proof/Machine/HostRun.lean ====
section
/-! DEFINITION. Runs of the machine: the host presents the transactions of its program one after another and reads each result
(R50, R152); several blocks side by side (R144). -/

namespace Sys2Proof.Machine

/-- `n` steps of the machine. -/
def runSteps (n : Nat) (s : State) : Host.Outcome State Fault Refusal := Host.Core.run Sys2Proof.core n s

/-- How many steps a host waits for a result: LATENCY edges in a pipelined build, "counting the edge that samples the
transaction as the first" (R23, R152), and the one evaluation of a combinational build (R22). -/
def State.waitSteps (s : State) : Nat := max 1 s.build.latency

/-- The host presents one transaction, presents nothing more, and waits for its result (R152). -/
def State.transact (s : State) (i : Instr) : Host.Outcome State Fault Refusal :=
  runSteps s.waitSteps { s with script := [Ports.presenting (encode i)] }

/-- Run one line: present its transaction, wait, and bind its name to (y, illegal) (R50). None where the line has no
transaction (`HostLine.operandPort`). -/
def runLine (l : HostLine) (names : HostNames) (s : State) : Option (State × HostNames) :=
  match l.instr names with
  | none => none
  | some i =>
    match s.transact i with
    | .next t =>
      match l.bind with
      | some n => some (t, (n, { y := t.y, illegal := t.illegal }) :: names)
      | none => some (t, names)
    | .fault _ => none
    | .refused _ => none

/-- Run the lines of a program in order (R50, "Program"). -/
def runLines : List HostLine → HostNames → State → Option (State × HostNames)
  | [], names, s => some (s, names)
  | l :: ls, names, s =>
    match runLine l names s with
    | some (t, names') => runLines ls names' t
    | none => none

/-- Several blocks side by side (R144): block `k` takes one step, and no other block takes part in it. Their
unspecified stage values come from the same constants (`State.resetOf`; notes/assumptions/2.md). -/
def stepBlock (k : Nat) (blocks : List State) : List State :=
  match blocks[k]? with
  | none => blocks
  | some s =>
    match step s with
    | .next t => blocks.set k t
    | .fault _ => blocks
    | .refused _ => blocks

end Sys2Proof.Machine
end

