-- ==== Sys2Proof/Machine/Exec.lean ====
section
/-! DEFINITION. `EXEC(op, a)`, the pure function of the block (R10, R22, R42), apart from any state. -/

namespace Sys2Proof.Machine

/-- The result column of R42's op map. -/
def resultOf (b : Build) : Instr → Word
  | .encU32 a => resEncU32 a
  | .encU64 a => resEncU64 a
  | .decU32 a => resDecU32 a
  | .decU64 a => resDecU64 a
  | .encI32 a => resEncI32 a
  | .encI64 a => resEncI64 a
  | .decI32 a => resDecI32 a
  | .decI64 a => resDecI64 a
  | .encF32 a => resEncF32 a
  | .encF64 a => resEncF64 a
  | .decF32 a => resDecF32 b a
  | .decF64 a => resDecF64 b a
  | .rne a => resRne a
  | .regx a => resRegx a
  | .reserved0xE _ => 0x0#64
  | .reserved0xF _ => 0x0#64

/-- R42: the pair (y, illegal) of a transaction in a build. A reserved op code gives (0, 1) (R46, R47, R136). -/
def EXEC (b : Build) (i : Instr) : Result :=
  if illegalIn b i.opcode then { y := 0x0#64, illegal := true } else { y := resultOf b i, illegal := false }

end Sys2Proof.Machine
end

