-- ==== Sys2Proof/WellFormed.lean ====
section
/-! DEFINITION. What a well-formed build and a well-formed transaction of a build are. -/

namespace Sys2Proof

/-- A binary32 NaN: exponent field all ones, mantissa non-zero (R105, R115). -/
def isNaN32 (b : BitVec 32) : Bool := b.extractLsb' 23 8 == 0xFF#8 && b.extractLsb' 0 23 != 0#23

/-- A binary64 NaN: exponent field all ones, mantissa non-zero (R105, R116). -/
def isNaN64 (b : BitVec 64) : Bool := b.extractLsb' 52 11 == 0x7FF#11 && b.extractLsb' 0 52 != 0#52

/-- R6: NAN_F32 "must be a binary32 NaN" and NAN_F64 "must be a binary64 NaN". -/
def Build.wf (b : Build) : Bool := isNaN32 b.nanF32 && isNaN64 b.nanF64

/-- A transaction is well formed in a build when its op code has a meaning there: every op of R42 but 0xE and 0xF (R46), the
signed ops only with HAS_SIGNED_ADAPTER (R47). The operand is never checked: "Every value of `a` is legal for every
non-reserved op" (R48). -/
def Instr.wf (b : Build) : Instr → Bool
  | .encU32 _ | .encU64 _ | .decU32 _ | .decU64 _ => true
  | .encI32 _ | .encI64 _ | .decI32 _ | .decI64 _ => b.hasSignedAdapter
  | .encF32 _ | .encF64 _ | .decF32 _ | .decF64 _ | .rne _ | .regx _ => true
  | .reserved0xE _ | .reserved0xF _ => false

end Sys2Proof
end

