-- ==== Sys2Proof/Safety.lean ====
section
/-! DEFINITION. What the statements are said in: the invariant of the machine, a run in which the host sees no ILLEGAL_OP, and
the exact meaning of "rounds to nearest, ties to even" for integers and for posits. -/

namespace Sys2Proof.Machine

/-! ### The invariant -/

/-- A stage that holds a result holds an EXEC pair: "`res_j` is always an EXEC value computed from that transaction's own
inputs" (R25). -/
def Stage.holdsExec (b : Build) (st : Stage) : Prop :=
  st.vld = true → ∃ i : Instr, EXEC b i = { y := st.res, illegal := st.ill }

/-- The invariant: the parameters are as R6 asks; there are exactly LATENCY stages (R23, R26); in a combinational build the
outputs are EXEC of what the ports carry (R22); and every valid stage holds an EXEC pair (R25). -/
structure State.Inv (s : State) : Prop where
  build_wf : s.build.wf = true
  stage_count : s.stages.length = s.build.latency
  settled_exec : s.build.latency = 0 → s.settled = EXEC s.build (decode s.ports.word)
  stages_exec : ∀ st ∈ s.stages, st.holdsExec s.build

/-- What an edge without reset puts into stage 1 when the ports carry `p`: `in_valid` and the EXEC pair (R23). -/
def Stage.ofPorts (b : Build) (p : Ports) : Stage :=
  { vld := p.inValid, res := (EXEC b (decode p.word)).y, ill := (EXEC b (decode p.word)).illegal }

/-! ### Safe runs -/

/-- Port values that ask for no ILLEGAL_OP: a transaction that is well formed in the build, or, in a pipelined build, no
transaction at all. -/
def Ports.harmless (b : Build) (p : Ports) : Bool :=
  (decode p.word).wf b || (b.latency != 0 && (!p.inValid || p.rst))

/-- Nothing in the block or in what the host will present is an ILLEGAL_OP. -/
def State.Clean (s : State) : Prop :=
  (∀ p ∈ s.script, p.harmless s.build = true) ∧ s.ports.harmless s.build = true ∧
    (∀ st ∈ s.stages, st.vld = true → st.ill = false) ∧
    (s.build.latency = 0 → s.stages = [] ∧ s.settled.illegal = false) ∧
    (s.build.latency ≠ 0 → s.stages ≠ [])

/-- A safe state: the host does not see ILLEGAL_OP (R136). -/
def State.safe (s : State) : Prop := s.hostView ≠ .illegalOp

/-! ### Rounding, said without an algorithm -/

/-- `n` is `x` rounded to the nearest integer, ties to the even integer (R88). -/
def RoundsToEvenInt (x : Rat) (n : Int) : Prop :=
  |x - n| ≤ 1 / 2 ∧ (|x - n| = 1 / 2 → n % 2 = 0)

/-- The value of a 17-bit positive posit pattern, whose regime starts at bit 15 (R110: "the value of the 17-bit posit pattern
(p << 1) | 1 that lies between them"). -/
def value17 (q : Nat) : Rat := (fieldsFrom 15 q).value

/-- `p` is the positive real `x` rounded to a posit: between the rounding boundaries of `p`, and at a boundary only where `p` is
the even of the two patterns beside it. Below the least pattern and above the greatest there is no boundary (R110: "Saturation is
never to NaR and never to ZERO"). -/
def RoundsToPosit (x : Rat) (p : Pattern) : Prop :=
  1 ≤ p.toNat ∧ p.toNat ≤ 0x7FFF ∧
    (p.toNat = 1 ∨ value17 (2 * p.toNat - 1) < x ∨ (value17 (2 * p.toNat - 1) = x ∧ p.toNat % 2 = 0)) ∧
    (p.toNat = 0x7FFF ∨ x < value17 (2 * p.toNat + 1) ∨ (x = value17 (2 * p.toNat + 1) ∧ p.toNat % 2 = 0))

end Sys2Proof.Machine
end

