-- ==== Sys2Proof/Certificates/Slice0/Obligations.lean ====
section
/-! DEFINITION. The statements for the provers, in the order of the spec's files. Each docstring names the rule it formalises; a
clause that rests on a choice of the model's names its log entry. -/

open Sys2Proof Sys2Proof.Machine

/-! ### Encoding and fetching (30_encoding.md) -/

/-- R40, R42, R50: no bit of an encoding is dropped. -/
def Obligations.DecodeOfEncode : Prop := ∀ i : Instr, decode (encode i) = i

/-- R40, R42: each of the 2^68 words has one meaning and one encoding. -/
def Obligations.EncodeOfDecode : Prop := ∀ t : TWord, encode (decode t) = t

/-- R40: "A decoder reads `op` and nothing else to choose the operation", `op` is `T[67:64]`, `a` is `T[63:0]`, `grp` is
`op[3:1]` and `w` is `op[0]`; and no number of more than 68 bits is a transaction word. The table of groups is R41's. -/
def Obligations.DecoderReadsOpField : Prop :=
  (∀ t : TWord, (decode t).opcode = t.extractLsb' 64 4 ∧ (decode t).operand = t.extractLsb' 0 64) ∧
  (∀ (grp : BitVec 3) (w : BitVec 1) (a : Word),
    let i := decode (grp ++ w ++ a)
    (grp = 0#3 → i = if w = 0#1 then .encU32 a else .encU64 a) ∧
    (grp = 1#3 → i = if w = 0#1 then .decU32 a else .decU64 a) ∧
    (grp = 2#3 → i = if w = 0#1 then .encI32 a else .encI64 a) ∧
    (grp = 3#3 → i = if w = 0#1 then .decI32 a else .decI64 a) ∧
    (grp = 4#3 → i = if w = 0#1 then .encF32 a else .encF64 a) ∧
    (grp = 5#3 → i = if w = 0#1 then .decF32 a else .decF64 a) ∧
    (grp = 6#3 → i = if w = 0#1 then .rne a else .regx a) ∧
    (grp = 7#3 → i = if w = 0#1 then .reserved0xE a else .reserved0xF a)) ∧
  (∀ v : Nat, decodeNat v = .error .longerThanT68 ↔ 2 ^ 68 ≤ v)

/-- Sanity: transaction words printed in 95_test_vectors.md decode to the instruction their line writes. -/
def Obligations.SpecWordsDecode : Prop :=
  decode 0x00000000000000003#68 = .encU32 0x3#64 ∧ decode 0x10000000000000020#68 = .encU64 0x20#64 ∧
  decode 0x20000000000007400#68 = .decU32 0x7400#64 ∧ decode 0x30000000000007FFF#68 = .decU64 0x7FFF#64 ∧
  decode 0x400000000FFFFFFE0#68 = .encI32 0xFFFFFFE0#64 ∧ decode 0x5FFFFFFFFFFFFFFFD#68 = .encI64 0xFFFFFFFFFFFFFFFD#64 ∧
  decode 0x60000000000008C00#68 = .decI32 0x8C00#64 ∧ decode 0x9402E000000000000#68 = .encF64 0x402E000000000000#64 ∧
  decode 0xD0000000000006F00#68 = .regx 0x6F00#64 ∧ decode 0xF0000000000000000#68 = .reserved0xF 0x0#64

/-- A step runs the decoded transaction: the host drives its next port values, or none (notes/assumptions/3.md), and where they
do not assert a reset the step is `exec` of the decoded word at that state. R17 and R20: the host alone decides what comes. -/
def Obligations.StepRunsDecodedTransaction : Prop :=
  (∀ (s : State) (p : Ports) (rest : List Ports), s.script = p :: rest → (s.build.latency = 0 ∨ p.rst = false) →
    step s = exec (decode (p.op ++ p.a)) { s with ports := p, script := rest }) ∧
  (∀ s : State, s.script = [] →
    step s = exec (decode (s.ports.op ++ s.ports.a)) { s with ports := { s.ports with inValid := false, rst := false } }) ∧
  (∀ (s : State) (n w : Nat), w < 2 ^ 68 →
    ∃ t, step (s.withFetchWord n w) = .next t ∧
      step (s.withFetchWord n w) = exec (decode (BitVec.ofNat 68 w)) { s with ports := t.ports } ∧
      t.ports.op ++ t.ports.a = BitVec.ofNat 68 w ∧ t.ports.inValid = true ∧ t.ports.rst = false)

/-! ### The ops complete with their results (R71, R73, R74, R86, R87, R96 to R99, R108, R109, R115, R116, R126) -/

/-- R73, with its encoding, its pseudocode (`encMag`, which `EncMagRoundsByAssemble` and `EncMagIsPositRounding` pin down), its
corner cases and its example. -/
def Obligations.Encu64Result : Prop :=
  (∀ a : Word, decode (0x1#4 ++ a) = .encU64 a) ∧
  (∀ (a : Word) (s : State),
    exec (.encU64 a) s = .next (s.deliver { y := (encMag a.toNat).setWidth 64, illegal := false })) ∧
  encMag 0 = 0x0000#16 ∧ encMag 1 = 0x4000#16 ∧ encMag 32 = 0x7400#16 ∧
  (∀ u, 2 ≤ u → u ≤ 511 → (encBody u).2 = (false, false) ∧ value (encMag u) = some (u : Rat)) ∧
  encMag 0x01800000 = 0x7FFC#16 ∧
  (∀ u, 0x01800001 ≤ u → u ≤ 0x01FFFFFF → encMag u = 0x7FFD#16) ∧
  (∀ u, 0x02000000 ≤ u → u ≤ 0x02FFFFFF → encMag u = 0x7FFD#16) ∧
  (∀ u, 0x03000000 ≤ u → u ≤ 0x08000000 → encMag u = 0x7FFE#16) ∧
  (∀ u, 0x08000001 ≤ u → u < 2 ^ 64 → encMag u = 0x7FFF#16) ∧
  (∀ u, u < 2 ^ 64 → (encMag u).toNat < 0x8000) ∧
  (∀ u, 2 ≤ u → u ≤ 0x02FFFFFF → (encMag u).toNat ≤ 0x7FFD ∧
    (rneInc ((encBody u).1.testBit 0) (encBody u).2.1 (encBody u).2.2 = true → (encBody u).1 ≤ 0x7FFC))

/-- R74: the 32-bit encoder, and "the two variants agree on every u < 2^32". -/
def Obligations.Encu32Result : Prop :=
  (∀ a : Word, decode (0x0#4 ++ a) = .encU32 a) ∧
  (∀ (a : Word) (s : State),
    exec (.encU32 a) s = .next (s.deliver { y := (encMag (a.toNat % 2 ^ 32)).setWidth 64, illegal := false })) ∧
  (∀ (a : Word) (s : State), a.toNat < 2 ^ 32 → exec (.encU32 a) s = exec (.encU64 a) s) ∧
  encMag 0xFFFFFFFF = 0x7FFF#16 ∧ encMag 3 = 0x5800#16

/-- R71: the truth table, for every operand; only `a[2:0]` matters. -/
def Obligations.RneTruthTable : Prop :=
  (∀ a : Word, decode (0xC#4 ++ a) = .rne a) ∧
  (∀ (a : Word) (s : State),
    exec (.rne a) s = .next (s.deliver
      { y := if a.setWidth 3 = 0b011#3 ∨ a.setWidth 3 = 0b110#3 ∨ a.setWidth 3 = 0b111#3 then 1#64 else 0#64
        illegal := false }))

/-- R86: the unsigned decoder with a 32-bit result; nothing is cut off, since no result is above 2^28. -/
def Obligations.Decu32Result : Prop :=
  (∀ a : Word, decode (0x2#4 ++ a) = .decU32 a) ∧
  (∀ (a : Word) (s : State), ∃ y : Word, exec (.decU32 a) s = .next (s.deliver { y := y, illegal := false }) ∧
    (0x8000 ≤ a.toNat % 2 ^ 16 → y = 0#64) ∧
    (a.toNat % 2 ^ 16 < 0x8000 → y.toNat = decMag (a.setWidth 16)) ∧
    y.toNat ≤ 2 ^ 28 ∧ (a.toNat % 2 ^ 16 = 0x7FFF → y.toNat = 0x10000000) ∧ (a.toNat % 2 ^ 16 = 0x7400 → y = 32#64))

/-- R87: the unsigned decoder with a 64-bit result; "For every p the two variants give the same integer". -/
def Obligations.Decu64Result : Prop :=
  (∀ a : Word, decode (0x3#4 ++ a) = .decU64 a) ∧
  (∀ (a : Word) (s : State), ∃ y : Word, exec (.decU64 a) s = .next (s.deliver { y := y, illegal := false }) ∧
    (0x8000 ≤ a.toNat % 2 ^ 16 → y = 0#64) ∧
    (a.toNat % 2 ^ 16 < 0x8000 → y.toNat = decMag (a.setWidth 16)) ∧
    exec (.decU64 a) s = exec (.decU32 a) s ∧ (a.toNat % 2 ^ 16 = 0x6F00 → y = 15#64))

/-- R96: the signed encoder of a 32-bit integer, in a build with the adapter (R95). -/
def Obligations.Enci32Result : Prop :=
  (∀ a : Word, decode (0x4#4 ++ a) = .encI32 a) ∧
  (∀ (a : Word) (s : State), s.build.hasSignedAdapter = true →
    ∃ p : Pattern, exec (.encI32 a) s = .next (s.deliver { y := p.setWidth 64, illegal := false }) ∧
      let i := (a.setWidth 32).toInt
      (i < -134217728 → p = 0x8001#16) ∧
      (-134217728 ≤ i → i < 0 → p = neg16 (encMag i.natAbs)) ∧
      (0 ≤ i → p = encMag i.natAbs) ∧
      (i = -2 ^ 31 → p = 0x8001#16) ∧ (i = -134217729 → p = 0x8001#16) ∧ (i = -134217728 → p = 0x8002#16) ∧
      (i = 0 → p = 0x0000#16) ∧ (i = -1 → p = 0xC000#16) ∧ (i = 2 ^ 31 - 1 → p = 0x7FFF#16) ∧ (i = -32 → p = 0x8C00#16))

/-- R97: the signed encoder of a 64-bit integer, with the same threshold, in a build with the adapter (R95). -/
def Obligations.Enci64Result : Prop :=
  (∀ a : Word, decode (0x5#4 ++ a) = .encI64 a) ∧
  (∀ (a : Word) (s : State), s.build.hasSignedAdapter = true →
    ∃ p : Pattern, exec (.encI64 a) s = .next (s.deliver { y := p.setWidth 64, illegal := false }) ∧
      (a.toInt < -134217728 → p = 0x8001#16) ∧
      (-134217728 ≤ a.toInt → a.toInt < 0 → p = neg16 (encMag a.toInt.natAbs)) ∧
      (0 ≤ a.toInt → p = encMag a.toInt.natAbs) ∧
      (a.toInt = -2 ^ 63 → p = 0x8001#16) ∧ (a.toInt = 2 ^ 63 - 1 → p = 0x7FFF#16) ∧ (a.toInt = -3 → p = 0xA800#16))

/-- R98: the signed decoder with a 32-bit result, zero-extended (R45); NaR gives 0. -/
def Obligations.Deci32Result : Prop :=
  (∀ a : Word, decode (0x6#4 ++ a) = .decI32 a) ∧
  (∀ (a : Word) (s : State), s.build.hasSignedAdapter = true →
    ∃ y : Word, exec (.decI32 a) s = .next (s.deliver { y := y, illegal := false }) ∧ y.toNat < 2 ^ 32 ∧
      let p : Pattern := a.setWidth 16
      let v := (y.setWidth 32).toInt
      (p = 0x8000#16 → v = 0) ∧ (0x8000#16 < p → v = -(decMag (neg16 p) : Int)) ∧ (p < 0x8000#16 → v = decMag p) ∧
      -2 ^ 28 ≤ v ∧ v ≤ 2 ^ 28 ∧
      (p = 0x8001#16 → y = 0xF0000000#64) ∧ (p = 0xFFFF#16 → y = 0#64) ∧ (p = 0x7FFF#16 → v = 2 ^ 28) ∧
      (p = 0x8C00#16 → y = 0xFFFFFFE0#64))

/-- R99: the signed decoder with a 64-bit result; NaR gives 0. -/
def Obligations.Deci64Result : Prop :=
  (∀ a : Word, decode (0x7#4 ++ a) = .decI64 a) ∧
  (∀ (a : Word) (s : State), s.build.hasSignedAdapter = true →
    ∃ y : Word, exec (.decI64 a) s = .next (s.deliver { y := y, illegal := false }) ∧
      let p : Pattern := a.setWidth 16
      (p = 0x8000#16 → y = 0#64) ∧ (0x8000#16 < p → y.toInt = -(decMag (neg16 p) : Int)) ∧
      (p < 0x8000#16 → y.toInt = decMag p) ∧
      (p = 0x8001#16 → y = 0xFFFFFFFFF0000000#64) ∧ (p = 0xC000#16 → y = 0xFFFFFFFFFFFFFFFF#64))

/-- R108: the binary32 encoder; its corner cases and example. -/
def Obligations.Encf32Result : Prop :=
  (∀ a : Word, decode (0x8#4 ++ a) = .encF32 a) ∧
  (∀ (a : Word) (s : State), exec (.encF32 a) s =
    .next (s.deliver { y := (encFloat binary32 (a.toNat % 2 ^ 32)).setWidth 64, illegal := false })) ∧
  encFloat binary32 0x00000000 = 0x0000#16 ∧ encFloat binary32 0x80000000 = 0x0000#16 ∧
  encFloat binary32 0x7F800000 = 0x8000#16 ∧ encFloat binary32 0xFF800000 = 0x8000#16 ∧
  encFloat binary32 0x7FC00000 = 0x8000#16 ∧ encFloat binary32 0x7F800001 = 0x8000#16 ∧
  encFloat binary32 0xFFC00000 = 0x8000#16 ∧
  encFloat binary32 0x7F7FFFFF = 0x7FFF#16 ∧ encFloat binary32 0xFF7FFFFF = 0x8001#16 ∧
  encFloat binary32 0x00000001 = 0x0001#16 ∧ encFloat binary32 0x80000001 = 0xFFFF#16 ∧
  encFloat binary32 0x4D000000 = 0x7FFE#16 ∧ encFloat binary32 0x4D000001 = 0x7FFF#16 ∧
  encFloat binary32 0x32000000 = 0x0002#16 ∧ encFloat binary32 0x31FFFFFF = 0x0001#16 ∧
  encFloat binary32 0xBF800000 = 0xC000#16 ∧ encFloat binary32 0x41700000 = 0x6F00#16

/-- R109: the binary64 encoder; its corner cases and example. -/
def Obligations.Encf64Result : Prop :=
  (∀ a : Word, decode (0x9#4 ++ a) = .encF64 a) ∧
  (∀ (a : Word) (s : State),
    exec (.encF64 a) s = .next (s.deliver { y := (encFloat binary64 a.toNat).setWidth 64, illegal := false })) ∧
  encFloat binary64 0x8000000000000000 = 0x0000#16 ∧ encFloat binary64 0x7FF0000000000000 = 0x8000#16 ∧
  encFloat binary64 0x7FF8000000000000 = 0x8000#16 ∧ encFloat binary64 0x41B0000000000000 = 0x7FFF#16 ∧
  encFloat binary64 0x41A0000000000000 = 0x7FFE#16 ∧ encFloat binary64 0x3E30000000000000 = 0x0001#16 ∧
  encFloat binary64 0x3FF8000000000000 = 0x4800#16 ∧ encFloat binary64 0x3FF0008000000000 = 0x4000#16 ∧
  encFloat binary64 0x3FF0018000000000 = 0x4002#16 ∧ encFloat binary64 0x4040000000000000 = 0x7400#16

/-- R115: the binary32 decoder, NaR giving the build's NAN_F32, which ENCF32 maps back to NaR. -/
def Obligations.Decf32Result : Prop :=
  Build.default.nanF32 = 0x7FC00000#32 ∧
  (∀ a : Word, decode (0xA#4 ++ a) = .decF32 a) ∧
  (∀ (a : Word) (s : State), exec (.decF32 a) s = .next (s.deliver
    { y := (BitVec.ofNat 32 (decFloat binary32 s.build.nanF32.toNat (a.setWidth 16))).setWidth 64, illegal := false })) ∧
  (∀ b : Build, b.wf = true → encFloat binary32 b.nanF32.toNat = 0x8000#16) ∧
  (∀ nan : Nat, decFloat binary32 nan 0x0000#16 = 0x00000000 ∧ decFloat binary32 nan 0x8000#16 = nan ∧
    decFloat binary32 nan 0x7FFF#16 = 0x4D800000 ∧ decFloat binary32 nan 0x8001#16 = 0xCD800000 ∧
    decFloat binary32 nan 0x0001#16 = 0x31800000 ∧ decFloat binary32 nan 0xFFFF#16 = 0xB1800000 ∧
    decFloat binary32 nan 0x7FFE#16 = 0x4C800000 ∧ decFloat binary32 nan 0x4000#16 = 0x3F800000 ∧
    decFloat binary32 nan 0xC000#16 = 0xBF800000 ∧ decFloat binary32 nan 0x6F00#16 = 0x41700000)

/-- R116: the binary64 decoder, NaR giving the build's NAN_F64. -/
def Obligations.Decf64Result : Prop :=
  Build.default.nanF64 = 0x7FF8000000000000#64 ∧
  (∀ a : Word, decode (0xB#4 ++ a) = .decF64 a) ∧
  (∀ (a : Word) (s : State), exec (.decF64 a) s = .next (s.deliver
    { y := BitVec.ofNat 64 (decFloat binary64 s.build.nanF64.toNat (a.setWidth 16)), illegal := false })) ∧
  (∀ b : Build, b.wf = true → encFloat binary64 b.nanF64.toNat = 0x8000#16) ∧
  (∀ nan : Nat, decFloat binary64 nan 0x0000#16 = 0 ∧ decFloat binary64 nan 0x8000#16 = nan ∧
    decFloat binary64 nan 0x7FFF#16 = 0x41B0000000000000 ∧ decFloat binary64 nan 0x0001#16 = 0x3E30000000000000 ∧
    decFloat binary64 nan 0x5401#16 = 0x4004010000000000 ∧ decFloat binary64 nan 0x7400#16 = 0x4040000000000000)

/-- R126: every field of the packed word reads back as `fields` gives it (R59), and the corner cases and the example. -/
def Obligations.RegxFieldsReadBack : Prop :=
  (∀ a : Word, decode (0xD#4 ++ a) = .regx a) ∧
  (∀ (a : Word) (s : State), ∃ y : Word, exec (.regx a) s = .next (s.deliver { y := y, illegal := false }) ∧
    let p : Pattern := a.setWidth 16
    let q : Pattern := if 0x8000#16 < p then neg16 p else p
    let x := fields q
    (p = 0x0000#16 → y = 0x20000000#64) ∧ (p = 0x8000#16 → y = 0x30000000#64) ∧
    (p ≠ 0x0000#16 → p ≠ 0x8000#16 →
      (y.extractLsb' 0 5).toInt = x.k ∧ (y.extractLsb' 5 1).toNat = x.e ∧ (y.extractLsb' 6 6).toInt = 2 * x.k + x.e ∧
      (y.extractLsb' 12 4).toNat = x.fw ∧ (y.extractLsb' 16 12).toNat = x.f * 2 ^ (12 - x.fw) ∧
      y.getLsbD 28 = p.getLsbD 15 ∧ y.getLsbD 29 = false ∧
      (y.getLsbD 30 = false ↔ q = 0x7FFF#16 ∨ q = 0x7FFE#16 ∨ q = 0x0001#16) ∧ y.toNat < 2 ^ 31) ∧
    (p = 0x7FFF#16 → x.k = 14 ∧ 2 * x.k + x.e = 28 ∧ x.fw = 0) ∧
    (p = 0x0001#16 → y.extractLsb' 0 5 = 0b10010#5 ∧ y.extractLsb' 6 6 = 0b100100#6) ∧
    (p = 0x7400#16 → y = 0x4000A162#64))

/-- R46: 0xE and 0xF give (0, 1) for every operand, in every build. That the host then takes no result from the ports is the
model's reading of "A model refuses a transaction with a reserved op code" (notes/assumptions/5.md). -/
def Obligations.ReservedOpsGiveZeroAndIllegal : Prop :=
  (∀ a : Word, decode (0xE#4 ++ a) = .reserved0xE a ∧ decode (0xF#4 ++ a) = .reserved0xF a) ∧
  (∀ (a : Word) (s : State),
    exec (.reserved0xE a) s = .next (s.deliver { y := 0#64, illegal := true }) ∧
    exec (.reserved0xF a) s = .next (s.deliver { y := 0#64, illegal := true })) ∧
  (∀ (a : Word) (s : State), s.build.latency = 0 → s.stages = [] →
    ∃ t, exec (.reserved0xE a) s = .next t ∧ t.y = 0#64 ∧ t.illegal = true ∧ t.hostView = .illegalOp)

/-- R47: without the adapter EXEC of the four signed op codes is (0, 1), "exactly as rule R46 does". That `exec` answers a next state
with that pair, where R46 says that a model refuses the transaction, is the model's reading (notes/assumptions/5.md). -/
def Obligations.SignedOpsReservedWithoutAdapter : Prop :=
  ∀ (a : Word) (s : State), s.build.hasSignedAdapter = false →
    exec (.encI32 a) s = .next (s.deliver { y := 0#64, illegal := true }) ∧
    exec (.encI64 a) s = .next (s.deliver { y := 0#64, illegal := true }) ∧
    exec (.decI32 a) s = .next (s.deliver { y := 0#64, illegal := true }) ∧
    exec (.decI64 a) s = .next (s.deliver { y := 0#64, illegal := true })

/-- R135: no op that is not reserved raises an exception, for any operand; it drives `illegal` 0 and a result. -/
def Obligations.WellFormedOpsNeverIllegal : Prop :=
  ∀ (i : Instr) (s : State), i.wf s.build = true →
    exec i s = .next (s.deliver { y := resultOf s.build i, illegal := false })

/-- R136: exactly the reserved op codes of the build drive `illegal` 1, and they drive y = 0. That `exec` answers a next state with that
pair for a reserved op code, where R136 says that a model refuses the transaction and "gives it no meaning", is the model's reading
(notes/assumptions/5.md). -/
def Obligations.IllegalExactlyWhenReserved : Prop :=
  ∀ (i : Instr) (s : State), ∃ r : Result, exec i s = .next (s.deliver r) ∧
    (r.illegal = true ↔
      i.opcode = 0xE#4 ∨ i.opcode = 0xF#4 ∨
        (s.build.hasSignedAdapter = false ∧
          (i.opcode = 0x4#4 ∨ i.opcode = 0x5#4 ∨ i.opcode = 0x6#4 ∨ i.opcode = 0x7#4))) ∧
    (r.illegal = true → r.y = 0#64)

/-- R44: the bits of `a` above an op's slice are ignored; the example of the rule. -/
def Obligations.BitsAboveSliceIgnored : Prop :=
  (∀ (b : Build) (a a' : Word),
    (a.setWidth 32 = a'.setWidth 32 →
      EXEC b (.encU32 a) = EXEC b (.encU32 a') ∧ EXEC b (.encI32 a) = EXEC b (.encI32 a') ∧
      EXEC b (.encF32 a) = EXEC b (.encF32 a')) ∧
    (a.setWidth 16 = a'.setWidth 16 →
      EXEC b (.decU32 a) = EXEC b (.decU32 a') ∧ EXEC b (.decU64 a) = EXEC b (.decU64 a') ∧
      EXEC b (.decI32 a) = EXEC b (.decI32 a') ∧ EXEC b (.decI64 a) = EXEC b (.decI64 a') ∧
      EXEC b (.decF32 a) = EXEC b (.decF32 a') ∧ EXEC b (.decF64 a) = EXEC b (.decF64 a') ∧
      EXEC b (.regx a) = EXEC b (.regx a')) ∧
    (a.setWidth 3 = a'.setWidth 3 → EXEC b (.rne a) = EXEC b (.rne a')) ∧
    EXEC b (.reserved0xE a) = EXEC b (.reserved0xE a') ∧ EXEC b (.reserved0xF a) = EXEC b (.reserved0xF a')) ∧
  (∀ b : Build, EXEC b (.encU32 0xFFFFFFFF00000003#64) = { y := 0x5800#64, illegal := false } ∧
    EXEC b (.encU32 0x3#64) = { y := 0x5800#64, illegal := false })

/-- R45: "Every result narrower than 64 bits is zero-extended into `y`", DECI32's too. -/
def Obligations.NarrowResultsZeroExtended : Prop :=
  ∀ (b : Build) (a : Word),
    (EXEC b (.encU32 a)).y.toNat < 2 ^ 16 ∧ (EXEC b (.encU64 a)).y.toNat < 2 ^ 16 ∧
    (EXEC b (.encI32 a)).y.toNat < 2 ^ 16 ∧ (EXEC b (.encI64 a)).y.toNat < 2 ^ 16 ∧
    (EXEC b (.encF32 a)).y.toNat < 2 ^ 16 ∧ (EXEC b (.encF64 a)).y.toNat < 2 ^ 16 ∧
    (EXEC b (.decU32 a)).y.toNat < 2 ^ 32 ∧ (EXEC b (.decI32 a)).y.toNat < 2 ^ 32 ∧
    (EXEC b (.decF32 a)).y.toNat < 2 ^ 32 ∧ (EXEC b (.rne a)).y.toNat < 2 ∧ (EXEC b (.regx a)).y.toNat < 2 ^ 31 ∧
    (EXEC b (.reserved0xE a)).y = 0#64 ∧ (EXEC b (.reserved0xF a)).y = 0#64

/-- R137: out-of-range and non-numeric inputs map to values, and none raises the flag, whatever the bits above the slice hold.
Each line is a row of the rule's table (the row "rounding" is `EncMagIsPositRounding`, `DecMagRoundsToEven` and
`EncFloatIsPositRounding`). -/
def Obligations.OutOfRangeInputsMapToValues : Prop :=
  ∀ b : Build, b.hasSignedAdapter = true → ∀ a : Word,
    let ok (p : Pattern) : Result := { y := p.setWidth 64, illegal := false }
    let zero : Result := { y := 0#64, illegal := false }
    let u32 := a.toNat % 2 ^ 32
    let i32 := (a.setWidth 32).toInt
    let p := a.toNat % 2 ^ 16
    (0x08000000 < u32 → EXEC b (.encU32 a) = ok 0x7FFF#16) ∧ (0x08000000 < a.toNat → EXEC b (.encU64 a) = ok 0x7FFF#16) ∧
    (0x02FFFFFF < u32 → u32 ≤ 0x08000000 → EXEC b (.encU32 a) = ok 0x7FFE#16) ∧
    (0x02FFFFFF < a.toNat → a.toNat ≤ 0x08000000 → EXEC b (.encU64 a) = ok 0x7FFE#16) ∧
    (i32 < -134217728 → EXEC b (.encI32 a) = ok 0x8001#16) ∧ (a.toInt < -134217728 → EXEC b (.encI64 a) = ok 0x8001#16) ∧
    (0x08000000 < i32 → EXEC b (.encI32 a) = ok 0x7FFF#16) ∧ (0x08000000 < a.toInt → EXEC b (.encI64 a) = ok 0x7FFF#16) ∧
    (binary32.value u32 = .nan ∨ (∃ n, binary32.value u32 = .infinity n) → EXEC b (.encF32 a) = ok 0x8000#16) ∧
    (binary64.value a.toNat = .nan ∨ (∃ n, binary64.value a.toNat = .infinity n) → EXEC b (.encF64 a) = ok 0x8000#16) ∧
    (∀ x, binary32.value u32 = .finite x →
      (2 ^ 28 ≤ x → EXEC b (.encF32 a) = ok 0x7FFF#16) ∧ (x ≤ -2 ^ 28 → EXEC b (.encF32 a) = ok 0x8001#16) ∧
      (0 < x → x ≤ 1 / 2 ^ 28 → EXEC b (.encF32 a) = ok 0x0001#16) ∧
      (x < 0 → -(1 / 2 ^ 28) ≤ x → EXEC b (.encF32 a) = ok 0xFFFF#16)) ∧
    (∀ x, binary64.value a.toNat = .finite x →
      (2 ^ 28 ≤ x → EXEC b (.encF64 a) = ok 0x7FFF#16) ∧ (x ≤ -2 ^ 28 → EXEC b (.encF64 a) = ok 0x8001#16) ∧
      (0 < x → x ≤ 1 / 2 ^ 28 → EXEC b (.encF64 a) = ok 0x0001#16) ∧
      (x < 0 → -(1 / 2 ^ 28) ≤ x → EXEC b (.encF64 a) = ok 0xFFFF#16)) ∧
    (p = 0x8000 → EXEC b (.decU32 a) = zero ∧ EXEC b (.decU64 a) = zero ∧ EXEC b (.decI32 a) = zero ∧
      EXEC b (.decI64 a) = zero) ∧
    (0x8000 < p → EXEC b (.decU32 a) = zero ∧ EXEC b (.decU64 a) = zero) ∧
    (p = 0x8000 → EXEC b (.decF32 a) = { y := b.nanF32.setWidth 64, illegal := false } ∧
      EXEC b (.decF64 a) = { y := b.nanF64, illegal := false })

/-! ### The posit16 format (40_posit16_format.md) -/

/-- R57: `neg16` is two's-complement negation, fixes zero and NaR, and undoes itself. -/
def Obligations.NegationIsTwosComplement : Prop :=
  (∀ p : Pattern, neg16 p = -p ∧ neg16 (neg16 p) = p) ∧ neg16 0x0000#16 = 0x0000#16 ∧ neg16 0x8000#16 = 0x8000#16

/-- R58: the four classes, and the magnitude pattern of a negative pattern is positive. -/
def Obligations.ClassesOfPatterns : Prop :=
  ∀ p : Pattern,
    (classify p = .zero ↔ p.toNat = 0) ∧ (classify p = .nar ↔ p.toNat = 0x8000) ∧
    (classify p = .positive ↔ 1 ≤ p.toNat ∧ p.toNat ≤ 0x7FFF) ∧ (classify p = .negative ↔ 0x8001 ≤ p.toNat) ∧
    (classify p = .positive → p.getLsbD 15 = false) ∧ (classify p = .negative → classify (neg16 p) = .positive)

/-- R60: the exponent bit is absent, and reads as 0, for exactly three positive patterns, whose regime values are 14, 13 and
−14. -/
def Obligations.ExponentBitAbsentForThree : Prop :=
  ∀ p : Pattern, 1 ≤ p.toNat → p.toNat ≤ 0x7FFF →
    (runLength p.toNat (p.getLsbD 14) 14 ≥ 14 ↔ p = 0x7FFF#16 ∨ p = 0x7FFE#16 ∨ p = 0x0001#16) ∧
    (expPresent p = false ↔ runLength p.toNat (p.getLsbD 14) 14 ≥ 14) ∧
    (p = 0x7FFF#16 → (fields p).k = 14 ∧ (fields p).e = 0) ∧ (p = 0x7FFE#16 → (fields p).k = 13 ∧ (fields p).e = 0) ∧
    (p = 0x0001#16 → (fields p).k = -14 ∧ (fields p).e = 0)

/-- R61: where every field lies in a positive pattern, for each regime value. -/
def Obligations.FieldLayoutByRegime : Prop :=
  ∀ p : Pattern, 1 ≤ p.toNat → p.toNat ≤ 0x7FFF →
    let x := fields p
    (-14 ≤ x.k ∧ x.k ≤ 14) ∧
    (∀ k : Nat, k ≤ 12 → x.k = k →
      (∀ i, 14 - k ≤ i → i ≤ 14 → p.getLsbD i = true) ∧ p.getLsbD (13 - k) = false ∧
      x.e = (p.getLsbD (12 - k)).toNat ∧ x.fw = 12 - k ∧ x.f = p.toNat % 2 ^ (12 - k)) ∧
    (x.k = 13 → p = 0x7FFE#16 ∧ x.e = 0 ∧ x.f = 0 ∧ x.fw = 0) ∧
    (x.k = 14 → p = 0x7FFF#16 ∧ x.e = 0 ∧ x.f = 0 ∧ x.fw = 0) ∧
    (∀ n : Nat, 1 ≤ n → n ≤ 13 → x.k = -(n : Int) →
      (∀ i, 15 - n ≤ i → i ≤ 14 → p.getLsbD i = false) ∧ p.getLsbD (14 - n) = true ∧
      x.e = (p.getLsbD (13 - n)).toNat ∧ x.fw = 13 - n ∧ x.f = p.toNat % 2 ^ (13 - n)) ∧
    (x.k = -14 → p = 0x0001#16 ∧ x.e = 0 ∧ x.f = 0 ∧ x.fw = 0)

/-- R62: the scales of positive patterns are the integers of [−28, 28] but −27 and 27, and each of those is taken. -/
def Obligations.ScalesTaken : Prop :=
  ∀ s : Int, (∃ p : Pattern, 1 ≤ p.toNat ∧ p.toNat ≤ 0x7FFF ∧ 2 * (fields p).k + (fields p).e = s) ↔
    (-28 ≤ s ∧ s ≤ 28 ∧ s ≠ -27 ∧ s ≠ 27)

/-- R63: every pattern but NaR has exactly one value, `2^s × (1 + f / 2^fw)` for a positive pattern and the negation for a
negative one; the five values the rule prints. -/
def Obligations.ValueOfPattern : Prop :=
  value 0x0000#16 = some 0 ∧ value 0x8000#16 = none ∧
  (∀ p : Pattern, 1 ≤ p.toNat → p.toNat ≤ 0x7FFF →
    value p = some ((2 : Rat) ^ (2 * (fields p).k + (fields p).e) * (1 + ((fields p).f : Rat) / 2 ^ (fields p).fw))) ∧
  (∀ p : Pattern, 0x8001 ≤ p.toNat → ∃ x, value (neg16 p) = some x ∧ value p = some (-x)) ∧
  value 0x4000#16 = some 1 ∧ value 0x7400#16 = some 32 ∧ value 0x6F00#16 = some 15 ∧ value 0x5800#16 = some 3 ∧
  value 0x7A00#16 = some 128

/-- R64: the canonical constants and their values, and the sign mask 0x8000. -/
def Obligations.CanonicalConstants : Prop :=
  ZERO = 0x0000#16 ∧ value ZERO = some 0 ∧ ONE = 0x4000#16 ∧ value ONE = some 1 ∧
  neg16 ONE = 0xC000#16 ∧ value 0xC000#16 = some (-1) ∧ MAX = 0x7FFF#16 ∧ value MAX = some (2 ^ 28) ∧
  MIN = 0x8001#16 ∧ neg16 MAX = MIN ∧ value MIN = some (-2 ^ 28) ∧
  MIN_POSITIVE = 0x0001#16 ∧ value MIN_POSITIVE = some (1 / 2 ^ 28) ∧
  neg16 MIN_POSITIVE = 0xFFFF#16 ∧ value 0xFFFF#16 = some (-(1 / 2 ^ 28)) ∧
  NAR = 0x8000#16 ∧ value NAR = none ∧ (∀ p : Pattern, signBit p = true ↔ p &&& 0x8000#16 ≠ 0#16) ∧ SECOND_LARGEST = 0x7FFE#16 ∧ value SECOND_LARGEST = some (2 ^ 26)

/-- R65: value is strictly increasing in the pattern read as a signed 16-bit integer, over all patterns but NaR; MAX and MIN are
the ends, MIN_POSITIVE is the least positive value, and `neg16` negates the value. -/
def Obligations.ValueOrderIsSignedOrder : Prop :=
  (∀ p q : Pattern, p ≠ NAR → q ≠ NAR → p.toInt < q.toInt → ∃ x y, value p = some x ∧ value q = some y ∧ x < y) ∧
  (∀ (p : Pattern) (x : Rat), value p = some x →
    -2 ^ 28 ≤ x ∧ x ≤ 2 ^ 28 ∧ (0 < x → 1 / 2 ^ 28 ≤ x) ∧ value (neg16 p) = some (-x)) ∧
  value MAX = some (2 ^ 28) ∧ value MIN = some (-2 ^ 28) ∧ value MIN_POSITIVE = some (1 / 2 ^ 28)

/-! ### Rounding and packing (41_magnitude_encoder.md) -/

/-- R70: adding `rne_inc` to the value whose low `d` bits were cut off is rounding to nearest, ties to even. -/
def Obligations.RneRoundsToNearestEven : Prop :=
  ∀ v d : Nat, RoundsToEvenInt ((v : Rat) / 2 ^ d) (roundUp (v >>> d) (guardBit v d) (stickyBit v d))

/-- R72, R110: `assemble` rounds the number `2^s × (1 + M / 2^mw)` to a posit at the value of the 17-bit pattern between two
neighbours, ties to the even pattern. -/
def Obligations.AssembleIsPositRounding : Prop :=
  ∀ (s : Int) (M mw : Nat), -28 ≤ s → s ≤ 27 → M < 2 ^ mw →
    RoundsToPosit ((2 : Rat) ^ s * (1 + (M : Rat) / 2 ^ mw)) (assemble s M mw)

/-- R75: the three cases by `assemble`; never ZERO for u ≥ 1, never NaR; monotonic. -/
def Obligations.EncMagRoundsByAssemble : Prop :=
  encMag 0 = 0x0000#16 ∧
  (∀ u, 1 ≤ u → u < 2 ^ 28 → encMag u = assemble (Nat.log2 u) (u % 2 ^ Nat.log2 u) (Nat.log2 u)) ∧
  (∀ u, 2 ^ 28 ≤ u → encMag u = 0x7FFF#16) ∧
  (∀ u, 1 ≤ u → encMag u ≠ 0x0000#16) ∧ (∀ u, encMag u ≠ 0x8000#16) ∧
  (∀ u u' : Nat, u ≤ u' → (encMag u).toNat ≤ (encMag u').toNat)

/-- R75: "The magnitude encoder is the posit rounding of the integer u", said without an algorithm. -/
def Obligations.EncMagIsPositRounding : Prop := ∀ u : Nat, 1 ≤ u → RoundsToPosit (u : Rat) (encMag u)

/-! ### The decoders (42_magnitude_decoder.md, 43_signed_adapter.md) -/

/-- R88: the magnitude decoder rounds the pattern's value to the nearest integer, ties to even; the three ties and the three
ranges of §8. -/
def Obligations.DecMagRoundsToEven : Prop :=
  (∀ p : Pattern, p.toNat ≤ 0x7FFF → ∃ x, value p = some x ∧ RoundsToEvenInt x (decMag p)) ∧
  value 0x3000#16 = some (1 / 2) ∧ value 0x4800#16 = some (3 / 2) ∧ value 0x5400#16 = some (5 / 2) ∧
  (∀ p : Pattern, p.toNat ≤ 0x3000 → decMag p = 0) ∧
  (∀ p : Pattern, 0x3000 < p.toNat → p.toNat < 0x4800 → decMag p = 1) ∧
  (∀ p : Pattern, 0x4800 ≤ p.toNat → p.toNat ≤ 0x5400 → decMag p = 2)

/-- R89: the decoder's range and order. -/
def Obligations.DecMagRangeAndOrder : Prop :=
  (∀ p : Pattern, p.toNat ≤ 0x7FFF → decMag p ≤ 2 ^ 28) ∧
  (∀ p q : Pattern, p.toNat ≤ q.toNat → q.toNat ≤ 0x7FFF → decMag p ≤ decMag q) ∧
  (∀ p : Pattern, 0x5401 ≤ p.toNat → p.toNat ≤ 0x7FFE → 2 < decMag p ∧ decMag p < 0x10000000)

/-- R100: the saturation branch changes no result, and decoding is odd-symmetric too. -/
def Obligations.SignedAdapterOddSymmetric : Prop :=
  (∀ i : Int, -2 ^ 63 ≤ i → i < 0 → encSigned i = neg16 (encMag i.natAbs)) ∧
  (∀ i : Int, -2 ^ 63 ≤ i → i < -134217728 → encMag i.natAbs = 0x7FFF#16 ∧ encSigned i = MIN) ∧
  (∀ p : Pattern, p ≠ 0x8000#16 → decSigned (neg16 p) = -decSigned p)

/-! ### The float ops (44_float_encoder.md, 45_float_decoder.md) -/

/-- R105, R106: the constants stand for the numbers their names say. -/
def Obligations.FloatConstantsValues : Prop :=
  binary32.value binary32.tmax = .finite (2 ^ 28) ∧ binary64.value binary64.tmax = .finite (2 ^ 28) ∧
  value MAX = some (2 ^ 28) ∧
  binary32.value binary32.tmin = .finite (1 / 2 ^ 28) ∧ binary64.value binary64.tmin = .finite (1 / 2 ^ 28) ∧
  value MIN_POSITIVE = some (1 / 2 ^ 28) ∧
  binary32.tmax = 0x4D800000 ∧ binary64.tmax = 0x41B0000000000000 ∧
  binary32.tmin = 0x31800000 ∧ binary64.tmin = 0x3E30000000000000 ∧
  binary32.value binary32.inf = .infinity false ∧ binary64.value binary64.inf = .infinity false ∧
  binary32.value binary32.one = .finite 1 ∧ binary64.value binary64.one = .finite 1

/-- R110: for every finite non-zero input of either width the float encoder gives the posit rounding of the float's value,
saturating at both ends. -/
def Obligations.EncFloatIsPositRounding : Prop :=
  ∀ (F : FloatFormat) (b : Nat), F = binary32 ∨ F = binary64 → b < 2 ^ F.w → ∀ x : Rat, F.value b = .finite x →
    (x = 0 → encFloat F b = ZERO) ∧
    (0 < x → RoundsToPosit x (encFloat F b)) ∧ (x < 0 → RoundsToPosit (-x) (neg16 (encFloat F b))) ∧
    (2 ^ 28 ≤ x → encFloat F b = MAX) ∧ (x ≤ -2 ^ 28 → encFloat F b = MIN) ∧
    (0 < x → x ≤ 1 / 2 ^ 28 → encFloat F b = MIN_POSITIVE) ∧
    (x < 0 → -(1 / 2 ^ 28) ≤ x → encFloat F b = neg16 MIN_POSITIVE)

/-- R110: "The §8 round trip holds: `encode_float(decode_float(p)) == p` for all 65 536 patterns, through both widths", in every
build whose parameters are as R6 asks. -/
def Obligations.FloatRoundTrip : Prop :=
  ∀ (b : Build) (p : Pattern), b.wf = true →
    EXEC b (.encF32 (EXEC b (.decF32 (p.setWidth 64))).y) = { y := p.setWidth 64, illegal := false } ∧
    EXEC b (.encF64 (EXEC b (.decF64 (p.setWidth 64))).y) = { y := p.setWidth 64, illegal := false }

/-- R117: the float decoder is exact at both widths, always with a normal exponent. -/
def Obligations.FloatDecoderExact : Prop :=
  ∀ (nan : Nat) (p : Pattern), p ≠ 0x0000#16 → p ≠ 0x8000#16 →
    ∃ x, value p = some x ∧
      binary32.value (decFloat binary32 nan p) = .finite x ∧ binary64.value (decFloat binary64 nan p) = .finite x ∧
      x ≠ 0 ∧ (fields (if 0x8000#16 < p then neg16 p else p)).fw ≤ 12 ∧
      99 ≤ binary32.expField (decFloat binary32 nan p) ∧ binary32.expField (decFloat binary32 nan p) ≤ 155 ∧
      995 ≤ binary64.expField (decFloat binary64 nan p) ∧ binary64.expField (decFloat binary64 nan p) ≤ 1051

/-! ### State, ports and the pipeline (10_state.md, 70_reset_and_hazards.md) -/

/-- R15, R22: the result of a transaction depends on its op code and operand alone; no state, no earlier transaction and no
other input changes it. Only the build's fixed parameters (R6) select which function it is. -/
def Obligations.ResultDependsOnTransactionAlone : Prop :=
  ∀ (b : Build) (i : Instr), ∃ r : Result, ∀ s : State, s.build = b → s.stages.length = b.latency →
    ∃ t, exec i s = .next t ∧
      (b.latency = 0 → t.y = r.y ∧ t.illegal = r.illegal) ∧
      (1 ≤ b.latency → ∃ st, t.stages.head? = some st ∧ st.res = r.y ∧ st.ill = r.illegal)

/-- The frame of every instruction: it changes nothing but the outputs of a combinational build (R22), or the stages of a pipelined
one (R23), where every stage but the first takes its predecessor. No other state exists (R15 to R19, R25, R27, R30). -/
def Obligations.ExecChangesOnlyOutputs : Prop :=
  ∀ (i : Instr) (s t : State), exec i s = .next t →
    t.build = s.build ∧ t.ports = s.ports ∧ t.script = s.script ∧ t.freeIx = s.freeIx ∧
    (s.build.latency = 0 → t.stages = s.stages) ∧
    (1 ≤ s.build.latency → t.settled = s.settled ∧ t.stages.tail = s.stages.take (s.build.latency - 1))

/-- From every state a step answers a next state ("no case in this block halts or faults", 93_implementation_defined.md; R140, R141);
it keeps the build, "The parameters of rule R6 are fixed when the block is built, and no op can read or write them" (R18); and it
takes one entry of what the host presents (notes/assumptions/3.md). That a step goes on at a reserved op code is the model's reading
(notes/assumptions/5.md). -/
def Obligations.StepGoesOnWithSameBuild : Prop :=
  ∀ s : State, ∃ t, step s = .next t ∧ t.build = s.build ∧ t.script = s.script.tail

/-- R22: in a combinational build (y, illegal) is EXEC of what the ports carry, after every step, and there is no `out_valid`. -/
def Obligations.CombinationalOutputs : Prop :=
  ∀ s : State, s.build.latency = 0 → s.stages = [] →
    ∃ t, step s = .next t ∧ { y := t.y, illegal := t.illegal } = EXEC s.build (decode t.ports.word) ∧ t.outValid = none

/-- R15, R34, R141, R152: in a combinational build a transaction proceeds as if the earlier one, an ILLEGAL_OP too, had not
happened; and the same transaction twice gives the same outputs. -/
def Obligations.EarlierTransactionHasNoEffect : Prop :=
  ∀ (i j : Instr) (s t : State), s.build.latency = 0 → exec j s = .next t → exec i t = exec i s

/-- R23: the pseudocode of one rising edge of a pipelined build, both branches, and what the output ports show after it. -/
def Obligations.EdgeShiftsStages : Prop :=
  ∀ (s : State) (L : Nat), s.build.latency = L → 1 ≤ L → s.stages.length = L →
    ∃ t, step s = .next t ∧ t.stages.length = L ∧
      (s.drive.ports.rst = true → ∀ st ∈ t.stages, st.vld = false) ∧
      (s.drive.ports.rst = false →
        t.stages[0]? = some { vld := s.drive.ports.inValid
                              res := (EXEC s.build (decode s.drive.ports.word)).y
                              ill := (EXEC s.build (decode s.drive.ports.word)).illegal } ∧
        ∀ j, j + 1 < L → t.stages[j + 1]? = s.stages[j]?) ∧
      (∀ last, t.stages[L - 1]? = some last → t.outValid = some last.vld ∧ t.y = last.res ∧ t.illegal = last.ill)

/-- R150: a reset edge from any state clears every valid bit and discards the transaction on the ports, whatever it is; a build
with LATENCY = 0 has no reset. That the whole stages, `res_j` and `ill_j` too, are the same whichever transaction is discarded is the
model's choice: R26 and R150 leave both unspecified, and the model's free values are numbered by `freeIx` and not by the
transaction (notes/assumptions/2.md). -/
def Obligations.ResetEdgeDiscardsAndClears : Prop :=
  (∀ (s : State) (p : Ports) (rest : List Ports), 1 ≤ s.build.latency → s.script = p :: rest → p.rst = true →
    ∃ t, step s = .next t ∧ t.stages.length = s.build.latency ∧ (∀ st ∈ t.stages, st.vld = false) ∧
      t.outValid = some false ∧ t.hostView = .nothing ∧
      ∀ q : Ports, q.rst = true → ∃ t', step { s with script := q :: rest } = .next t' ∧ t'.stages = t.stages) ∧
  (∀ (s : State) (p : Ports) (rest : List Ports), s.build.latency = 0 → s.script = p :: rest →
    ∃ t t', step s = .next t ∧ step { s with script := { p with rst := !p.rst } :: rest } = .next t' ∧
      t'.settled = t.settled ∧ t'.stages = t.stages)

/-- R23, R154, R155: exactly LATENCY edges after it is sampled, counting the sampling edge, each transaction's EXEC pair is on the
ports with `out_valid` equal to its `in_valid`, in issue order; the stages are the EXEC pairs of the last LATENCY samples. -/
def Obligations.PipelineDeliversInOrder : Prop :=
  ∀ (s : State) (n L : Nat), s.build.latency = L → 1 ≤ L → s.stages.length = L → n ≤ s.script.length →
    (∀ p ∈ s.script.take n, p.rst = false) →
    ∃ t, runSteps n s = .next t ∧ t.build = s.build ∧ t.script = s.script.drop n ∧
      t.stages = (((s.script.take n).map (Stage.ofPorts s.build)).reverse ++ s.stages).take L ∧
      (∀ p, L ≤ n → s.script[n - L]? = some p →
        t.outValid = some p.inValid ∧ { y := t.y, illegal := t.illegal } = EXEC s.build (decode p.word))

/-- R151: after one reset edge, from any state at all (power-up too), a result with `out_valid` = 1 belongs to a transaction presented
after the reset: nothing is valid before LATENCY further edges, and then exactly the transactions presented since. -/
def Obligations.AfterResetResultsAreNew : Prop :=
  ∀ (s : State) (p : Ports) (qs : List Ports) (n L : Nat), s.build.latency = L → 1 ≤ L → s.script = p :: qs → p.rst = true →
    n ≤ qs.length → (∀ q ∈ qs.take n, q.rst = false) →
    ∃ t, runSteps (n + 1) s = .next t ∧
      (n < L → t.outValid = some false) ∧
      (∀ q, L ≤ n → qs[n - L]? = some q →
        t.outValid = some q.inValid ∧ { y := t.y, illegal := t.illegal } = EXEC s.build (decode q.word))

/-- R152: a host that presents one transaction and waits LATENCY edges (one evaluation in a combinational build) reads its result, or
ILLEGAL_OP where it is reserved in the build (R136; that the machine goes on and the host has no result is
notes/assumptions/5.md). That nothing is presented while it waits is notes/assumptions/3.md. -/
def Obligations.HostReadsItsResult : Prop :=
  ∀ (s : State) (i : Instr), s.stages.length = s.build.latency →
    ∃ t, s.transact i = .next t ∧
      t.hostView = if i.wf s.build = true then .result (resultOf s.build i) else .illegalOp

/-- R26, R150: the block after reset in every build: LATENCY stages, none valid; no state when LATENCY = 0; and `State.reset` is the
default build's (R6). The ports' values are the model's choice (notes/assumptions/4.md). -/
def Obligations.ResetState : Prop :=
  (∀ b : Build, (State.resetOf b).build = b ∧ (State.resetOf b).stages.length = b.latency ∧
    (∀ st ∈ (State.resetOf b).stages, st.vld = false) ∧ (1 ≤ b.latency → (State.resetOf b).outValid = some false)) ∧
  State.reset = State.resetOf Build.default ∧ State.reset.stages = [] ∧ State.reset.outValid = none ∧
  State.reset.build = { hasSignedAdapter := true, latency := 0, nanF32 := 0x7FC00000#32, nanF64 := 0x7FF8000000000000#64 }

/-! ### Invariants and safety -/

/-- Every step keeps the invariant: the parameters are as R6 asks, there are LATENCY stages (R23), the outputs of a combinational build
are EXEC of its ports (R22), and every valid stage holds an EXEC pair (R25). -/
def Obligations.StepKeepsInv : Prop := ∀ s t : State, s.Inv → step s = .next t → t.Inv

/-- The invariant holds after reset in every build whose parameters are as R6 asks, and one reset edge establishes it from any state
of a pipelined build (R150, R151). The port values and settled outputs of `State.reset` and `State.resetOf` are the model's choice
(notes/assumptions/4.md). -/
def Obligations.ResetHasInv : Prop :=
  State.reset.Inv ∧ (∀ b : Build, b.wf = true → (State.resetOf b).Inv) ∧
  (∀ s t : State, s.build.wf = true → 1 ≤ s.build.latency → s.drive.ports.rst = true → step s = .next t → t.Inv)

/-- R136: a host that presents only transactions with a meaning in its build never sees ILLEGAL_OP. What the ports carry once the host
has nothing more to present is the model's choice (notes/assumptions/3.md), and so is the clause about `State.reset`, whose ports
carry op 0, with its settled outputs (notes/assumptions/4.md). -/
def Obligations.HarmlessHostNeverSeesIllegal : Prop :=
  (∀ s t : State, s.Clean → step s = .next t → t.Clean) ∧ (∀ s : State, s.Clean → s.safe) ∧ State.reset.Clean

/-! ### The host's notation (30_encoding.md R50) -/

/-- R50: a literal fills the op's slice with bitsW(literal) and leaves the other bits of `a` 0; a negative literal is allowed only for
ENCI32 and ENCI64; a name stands for the `y` of the line that bound it; the word is `(op << 64) | a`. That names are compared as
they are written is the model's choice (notes/assumptions/7.md). -/
def Obligations.HostLineWord : Prop :=
  (∀ (l : HostLine) (names : HostNames) (v : Int), l.operand = .literal v → (0 ≤ v ∨ l.op = .encI32 ∨ l.op = .encI64) →
    ∃ a : Word, l.word names = some ((l.op.instr a).opcode ++ a) ∧
      a.toNat < 2 ^ l.op.sliceWidth ∧ (a.toNat : Int) % 2 ^ l.op.sliceWidth = v % 2 ^ l.op.sliceWidth) ∧
  (∀ (l : HostLine) (names : HostNames) (v : Int), l.operand = .literal v → v < 0 → l.op ≠ .encI32 → l.op ≠ .encI64 →
    l.word names = none) ∧
  (∀ (l : HostLine) (names : HostNames) (n : String) (r : Result), l.operand = .name n → names.lookup n = some r →
    r.illegal = false → l.word names = some ((l.op.instr r.y).opcode ++ r.y))
end

