-- ==== Sys2Proof/Laws/State.lean ====
section
/-! SUPPORT. One lemma per field and update of the state, so that no proof unfolds a record update. -/

namespace Sys2Proof.Machine

/-! ### drive -/

@[simp] theorem drive_build (s : State) : s.drive.build = s.build := by
  unfold State.drive; split <;> rfl
@[simp] theorem drive_stages (s : State) : s.drive.stages = s.stages := by
  unfold State.drive; split <;> rfl
@[simp] theorem drive_settled (s : State) : s.drive.settled = s.settled := by
  unfold State.drive; split <;> rfl
@[simp] theorem drive_freeIx (s : State) : s.drive.freeIx = s.freeIx := by
  unfold State.drive; split <;> rfl
@[simp] theorem drive_script (s : State) : s.drive.script = s.script.tail := by
  unfold State.drive; split <;> simp [*]
theorem drive_ports_nil {s : State} (h : s.script = []) : s.drive.ports = s.ports.quiet := by
  simp [State.drive, h]
theorem drive_ports_cons {s : State} {p : Ports} {rest : List Ports} (h : s.script = p :: rest) : s.drive.ports = p := by
  simp [State.drive, h]

/-! ### deliver -/

@[simp] theorem deliver_build (s : State) (r : Result) : (s.deliver r).build = s.build := by
  unfold State.deliver; split <;> rfl
@[simp] theorem deliver_ports (s : State) (r : Result) : (s.deliver r).ports = s.ports := by
  unfold State.deliver; split <;> rfl
@[simp] theorem deliver_script (s : State) (r : Result) : (s.deliver r).script = s.script := by
  unfold State.deliver; split <;> rfl
@[simp] theorem deliver_freeIx (s : State) (r : Result) : (s.deliver r).freeIx = s.freeIx := by
  unfold State.deliver; split <;> rfl
theorem deliver_settled (s : State) (r : Result) :
    (s.deliver r).settled = if s.build.latency = 0 then r else s.settled := by
  unfold State.deliver; split <;> rfl
theorem deliver_stages (s : State) (r : Result) :
    (s.deliver r).stages =
      if s.build.latency = 0 then s.stages else shiftStages s.build.latency s.ports.inValid r s.stages := by
  unfold State.deliver; split <;> rfl

/-! ### resetEdge -/

@[simp] theorem resetEdge_build (s : State) : s.resetEdge.build = s.build := rfl
@[simp] theorem resetEdge_ports (s : State) : s.resetEdge.ports = s.ports := rfl
@[simp] theorem resetEdge_script (s : State) : s.resetEdge.script = s.script := rfl
@[simp] theorem resetEdge_settled (s : State) : s.resetEdge.settled = s.settled := rfl
@[simp] theorem resetEdge_freeIx (s : State) : s.resetEdge.freeIx = s.freeIx + s.build.latency := rfl
@[simp] theorem resetEdge_stages (s : State) :
    s.resetEdge.stages = freeStages (fun _ => false) s.freeIx s.build.latency := rfl

/-! ### the ports -/

@[simp] theorem quiet_word (p : Ports) : p.quiet.word = p.word := rfl
@[simp] theorem quiet_inValid (p : Ports) : p.quiet.inValid = false := rfl
@[simp] theorem quiet_rst (p : Ports) : p.quiet.rst = false := rfl

end Sys2Proof.Machine
end

