-- ==== Sys2Proof/Laws/Ops.lean ====
section
/-! SUPPORT. What each shared operation does, said once: the meanings' endings, the shift of the stages, the reset edge, the
output ports, exec and step. -/

namespace Sys2Proof.Machine

/-! ### The three endings of a meaning -/

theorem complete_eq (s : State) (y : Word) : s.complete y = .next (s.deliver { y := y, illegal := false }) := rfl

theorem raiseIllegalOp_eq (s : State) : s.raiseIllegalOp = .next (s.deliver { y := 0x0#64, illegal := true }) := rfl

theorem completeSigned_eq (s : State) (y : Word) :
    s.completeSigned y =
      .next (s.deliver (if s.build.hasSignedAdapter then { y := y, illegal := false } else { y := 0x0#64, illegal := true })) := by
  unfold State.completeSigned; split <;> rfl

/-! ### Stages -/

theorem shiftStages_cons (n : Nat) (v : Bool) (r : Result) (l : List Stage) :
    shiftStages (n + 1) v r l = { vld := v, res := r.y, ill := r.illegal } :: l.take n := rfl

theorem shiftStages_length {n : Nat} {l : List Stage} (v : Bool) (r : Result) (h : l.length = n) :
    (shiftStages n v r l).length = n := by
  simp [shiftStages, h]

@[simp] theorem freeStages_length (f : Nat → Bool) (first n : Nat) : (freeStages f first n).length = n := by
  induction n generalizing first with
  | zero => rfl
  | succ n ih => simp [freeStages, ih]

theorem freeStages_vld {first n : Nat} {st : Stage} (h : st ∈ freeStages (fun _ => false) first n) : st.vld = false := by
  induction n generalizing first with
  | zero => simp [freeStages] at h
  | succ n ih =>
    rcases List.mem_cons.mp h with rfl | h
    · rfl
    · exact ih h

/-! ### The output ports -/

theorem outputs_of_no_stage {s : State} (h : s.stages = []) :
    s.y = s.settled.y ∧ s.illegal = s.settled.illegal ∧ s.outValid = none := by
  simp [State.y, State.illegal, State.outValid, State.lastStage, h]

theorem outputs_of_lastStage {s : State} {st : Stage} (h : s.lastStage = some st) :
    s.y = st.res ∧ s.illegal = st.ill ∧ s.outValid = some st.vld := by
  simp [State.y, State.illegal, State.outValid, h]

/-! ### exec and step -/

/-- Everything `exec` can do: it hands the EXEC pair on and changes nothing else. -/
theorem exec_eq (i : Instr) (s : State) : exec i s = .next (s.deliver (EXEC s.build i)) := by
  cases h : s.build.hasSignedAdapter <;> cases i <;>
    simp [exec, EXEC, illegalIn, Instr.opcode, resultOf, execEncU32, execEncU64, execDecU32, execDecU64, execEncI32,
      execEncI64, execDecI32, execDecI64, execEncF32, execEncF64, execDecF32, execDecF64, execRne, execRegx,
      execReserved0xE, execReserved0xF, complete_eq, completeSigned_eq, raiseIllegalOp_eq, h]

/-- Everything `step` can do: a reset edge, or the EXEC pair of what the host drives handed on. -/
theorem step_eq (s : State) :
    step s = .next (if s.drive.inReset then s.drive.resetEdge
      else s.drive.deliver (EXEC s.build (decode s.drive.ports.word))) := by
  unfold step State.respond
  split <;> simp [exec_eq, drive_build, *]

end Sys2Proof.Machine
end

