-- ==== Sys2Proof/Laws/Blocks.lean ====
section
/-! SUPPORT. Blocks side by side share nothing (R144). -/

namespace Sys2Proof.Machine

/-- What `stepBlock` does: block `k` takes the step it would take alone. -/
theorem stepBlock_eq {k : Nat} {blocks : List State} {s t : State} (h : blocks[k]? = some s) (ht : step s = .next t) :
    stepBlock k blocks = blocks.set k t := by
  simp [stepBlock, h, ht]

/-- Every other block is as it was. -/
theorem stepBlock_other {k j : Nat} (blocks : List State) (h : j ≠ k) : (stepBlock k blocks)[j]? = blocks[j]? := by
  unfold stepBlock
  split
  · rfl
  · rw [step_eq]
    simp [Ne.symm h]

end Sys2Proof.Machine
end

