-- ==== Sys2Proof/Laws/Numbers.lean ====
section
/-! SUPPORT. The small lemmas of the operand slices, of the result placement, of negation and of bit strings. -/

namespace Sys2Proof.Machine

/-! ### Operand slices (R43) and result placement (R45) -/

theorem extractLow_eq_setWidth {w : Nat} (n : Nat) (a : BitVec w) : a.extractLsb' 0 n = a.setWidth n := by
  apply BitVec.eq_of_getLsbD_eq
  intro i hi
  simp [hi]

theorem opPattern_eq (a : Word) : opPattern a = a.setWidth 16 := extractLow_eq_setWidth 16 a
theorem opU32_eq (a : Word) : opU32 a = a.toNat % 2 ^ 32 := by
  rw [opU32, extractLow_eq_setWidth, BitVec.toNat_setWidth]
theorem opU64_eq (a : Word) : opU64 a = a.toNat := by
  rw [opU64, extractLow_eq_setWidth, BitVec.setWidth_eq]
theorem opI32_eq (a : Word) : opI32 a = (a.setWidth 32).toInt := by rw [opI32, extractLow_eq_setWidth]
theorem opI64_eq (a : Word) : opI64 a = a.toInt := by rw [opI64, extractLow_eq_setWidth, BitVec.setWidth_eq]

theorem placePattern_toNat (p : Pattern) : (placePattern p).toNat = p.toNat := by
  rw [placePattern, BitVec.toNat_setWidth]; omega
theorem placeU32_toNat (u : Nat) : (placeU32 u).toNat = u % 2 ^ 32 := by
  rw [placeU32, BitVec.toNat_setWidth, BitVec.toNat_ofNat]; omega
theorem placeU64_toNat (u : Nat) : (placeU64 u).toNat = u % 2 ^ 64 := by rw [placeU64, BitVec.toNat_ofNat]

/-- A pattern that one op puts on `y` is the pattern the next op takes from `a` (R50: `a <- y`). -/
theorem opPattern_placePattern (p : Pattern) : opPattern (placePattern p) = p := by
  rw [opPattern_eq, placePattern, BitVec.setWidth_setWidth_of_le p (by decide), BitVec.setWidth_eq]

/-! ### Negation (R57) -/

theorem neg16_eq_neg (p : Pattern) : neg16 p = -p := by rw [neg16, BitVec.neg_eq_not_add]

/-! ### Bit strings (R72) -/

@[simp] theorem bitsDown_length (M n : Nat) : (bitsDown M n).length = n := by
  induction n with
  | zero => rfl
  | succ n ih => simp [bitsDown, ih]

theorem readBits_foldl (str : List Bool) (n : Nat) :
    str.foldl (fun n b => 2 * n + b.toNat) n = n * 2 ^ str.length + readBits str := by
  induction str generalizing n with
  | nil => simp [readBits]
  | cons b bs ih =>
    simp only [List.foldl_cons, List.length_cons, readBits]
    rw [ih, ih (2 * 0 + b.toNat)]
    ring

/-- Reading a string made of two: the first counts for more. -/
theorem readBits_append (xs ys : List Bool) : readBits (xs ++ ys) = readBits xs * 2 ^ ys.length + readBits ys := by
  rw [readBits, List.foldl_append, readBits_foldl ys, ← readBits]

theorem readBits_cons (b : Bool) (ys : List Bool) : readBits (b :: ys) = b.toNat * 2 ^ ys.length + readBits ys := by
  have h := readBits_append [b] ys
  simpa [readBits] using h

theorem readBits_lt (str : List Bool) : readBits str < 2 ^ str.length := by
  induction str with
  | nil => simp [readBits]
  | cons b bs ih =>
    rw [readBits_cons, List.length_cons, pow_succ]
    cases b <;> simp <;> omega

/-- Writing the low `n` bits of a number and reading them back gives those bits. -/
theorem readBits_bitsDown (M n : Nat) : readBits (bitsDown M n) = M % 2 ^ n := by
  induction n with
  | zero => simp [bitsDown, readBits, Nat.mod_one]
  | succ n ih =>
    rw [bitsDown, readBits_cons, ih, bitsDown_length, Nat.toNat_testBit, Nat.pow_succ, Nat.mod_mul, Nat.mul_comm, Nat.add_comm]

end Sys2Proof.Machine
end

