-- ==== Sys2Proof/Laws/PerInstr.lean ====
section
/-! SUPPORT. Statements made per instruction, about the instruction as syntax: one lemma per constructor. -/

namespace Sys2Proof.Laws.Encodes

/-- The two fields of the encoded word are the op code of R42 and the operand port (R40). -/
def Statement (i : Instr) : Prop := opField (encode i) = i.opcode ∧ operandField (encode i) = i.operand

theorem fields_of_append (op : OpCode) (a : Word) :
    opField (op ++ a : TWord) = op ∧ operandField (op ++ a : TWord) = a := by
  constructor
  · apply BitVec.eq_of_getLsbD_eq
    intro i hi
    simp only [opField, BitVec.getLsbD_extractLsb', BitVec.getLsbD_append]
    simp [hi]
  · apply BitVec.eq_of_getLsbD_eq
    intro i hi
    simp only [operandField, BitVec.getLsbD_extractLsb', BitVec.getLsbD_append]
    simp [hi]

theorem encU32 (a : Word) : Statement (.encU32 a) := fields_of_append _ _
theorem encU64 (a : Word) : Statement (.encU64 a) := fields_of_append _ _
theorem decU32 (a : Word) : Statement (.decU32 a) := fields_of_append _ _
theorem decU64 (a : Word) : Statement (.decU64 a) := fields_of_append _ _
theorem encI32 (a : Word) : Statement (.encI32 a) := fields_of_append _ _
theorem encI64 (a : Word) : Statement (.encI64 a) := fields_of_append _ _
theorem decI32 (a : Word) : Statement (.decI32 a) := fields_of_append _ _
theorem decI64 (a : Word) : Statement (.decI64 a) := fields_of_append _ _
theorem encF32 (a : Word) : Statement (.encF32 a) := fields_of_append _ _
theorem encF64 (a : Word) : Statement (.encF64 a) := fields_of_append _ _
theorem decF32 (a : Word) : Statement (.decF32 a) := fields_of_append _ _
theorem decF64 (a : Word) : Statement (.decF64 a) := fields_of_append _ _
theorem rne (a : Word) : Statement (.rne a) := fields_of_append _ _
theorem regx (a : Word) : Statement (.regx a) := fields_of_append _ _
theorem reserved0xE (a : Word) : Statement (.reserved0xE a) := fields_of_append _ _
theorem reserved0xF (a : Word) : Statement (.reserved0xF a) := fields_of_append _ _

end Sys2Proof.Laws.Encodes
end

