-- ==== Sys2Proof/Tests/Slice0.lean ====
section
/-! SUPPORT. The model's own tests. Expected results come from spec/95_test_vectors.md (the tables L1 and L2 and the program P3), or
from the rule named. The theorems named witness_… show values that meet the hypotheses of the statement of that name. -/

namespace Sys2Proof.Tests

open Sys2Proof.Machine

/-- What the host sees after one step that presents the transaction word `w` to a combinational block of build `b`. -/
def seenIn (b : Build) (w : Nat) : Option HostView :=
  match step ((State.resetOf b).withFetchWord 68 w) with
  | .next t => some t.hostView
  | .fault _ => none
  | .refused _ => none

/-- The same in the default build. -/
def seen (w : Nat) : Option HostView := seenIn Build.default w

/-- The stages after one step from a pipelined state. -/
def stagesAfter (s : State) : Option (List Stage) :=
  match step s with
  | .next t => some t.stages
  | .fault _ => none
  | .refused _ => none

/-- A two-stage block holding two results, whose host presents `p` next (R23). -/
def twoStages (p : Ports) : State :=
  { State.reset with
    build := { latency := 2 }
    script := [p]
    stages := [{ vld := true, res := 0x7FFC#64, ill := false }, { vld := true, res := 0x7400#64, ill := false }] }

/-! ### Decoding: a word written out bit by bit from the encoding of each row -/

theorem test_decode_encu32 : decode 0b00000000000000000000000000000000000000000000000000000000000000000011#68 = .encU32 3#64 := by decide
theorem test_decode_encu64 : decode 0b00010000000000000000000000000000000000000000000000000000000000100000#68 = .encU64 32#64 := by decide
theorem test_decode_decu32 : decode 0b00100000000000000000000000000000000000000000000000000111010000000000#68 = .decU32 0x7400#64 := by decide
theorem test_decode_decu64 : decode 0b00110000000000000000000000000000000000000000000000000110111100000000#68 = .decU64 0x6F00#64 := by decide
theorem test_decode_enci32 : decode 0b01000000000000000000000000000000000011111111111111111111111111100000#68 = .encI32 0xFFFFFFE0#64 := by decide
theorem test_decode_enci64 : decode 0b01011111111111111111111111111111111111111111111111111111111111111101#68 = .encI64 0xFFFFFFFFFFFFFFFD#64 := by decide
theorem test_decode_deci32 : decode 0b01100000000000000000000000000000000000000000000000001000110000000000#68 = .decI32 0x8C00#64 := by decide
theorem test_decode_deci64 : decode 0b01110000000000000000000000000000000000000000000000001100000000000000#68 = .decI64 0xC000#64 := by decide
theorem test_decode_encf32 : decode 0b10000000000000000000000000000000000001000001011100000000000000000000#68 = .encF32 0x41700000#64 := by decide
theorem test_decode_encf64 : decode 0b10010100000001000000000000000000000000000000000000000000000000000000#68 = .encF64 0x4040000000000000#64 := by decide
theorem test_decode_decf32 : decode 0b10100000000000000000000000000000000000000000000000000110111100000000#68 = .decF32 0x6F00#64 := by decide
theorem test_decode_decf64 : decode 0b10110000000000000000000000000000000000000000000000000111010000000000#68 = .decF64 0x7400#64 := by decide
theorem test_decode_rne : decode 0b11000000000000000000000000000000000000000000000000000000000000000011#68 = .rne 3#64 := by decide
theorem test_decode_regx : decode 0b11010000000000000000000000000000000000000000000000000111010000000000#68 = .regx 0x7400#64 := by decide
theorem test_decode_reserved0xE : decode 0b11100000000000000000000000000000000000000000000000000000000000000000#68 = .reserved0xE 0#64 := by decide
theorem test_decode_reserved0xF : decode 0b11111111111111111111111111111111111111111111111111111111111111111111#68 = .reserved0xF 0xFFFFFFFFFFFFFFFF#64 := by decide
theorem test_decode_rejects_69_bits : decodeNat (2 ^ 68) = .error .longerThanT68 ∧ decodeTableWord 72 (2 ^ 68) = none := ⟨by rfl, by decide⟩
theorem test_encode_regx : encode (.regx 0x7400#64) = 0xD0000000000007400#68 := by decide

/-! ### Well-formedness: each check refuses an ill-formed term -/

theorem test_wf_nanF32_is_no_nan : Build.wf { nanF32 := 0x7F800000#32 } = false := by decide
theorem test_wf_nanF32_finite : Build.wf { nanF32 := 0x3FC00000#32 } = false := by decide
theorem test_wf_nanF64_is_no_nan : Build.wf { nanF64 := 0x7FF0000000000000#64 } = false := by decide
theorem test_wf_nanF64_finite : Build.wf { nanF64 := 0x3FF8000000000000#64 } = false := by decide
theorem test_wf_default : Build.wf Build.default = true := by decide
theorem test_wf_reserved : Instr.wf Build.default (.reserved0xE 0#64) = false ∧ Instr.wf Build.default (.reserved0xF 0#64) = false := by decide
theorem test_wf_signed_without_adapter :
    Instr.wf { hasSignedAdapter := false } (.encI32 0#64) = false ∧ Instr.wf { hasSignedAdapter := false } (.encI64 0#64) = false ∧
    Instr.wf { hasSignedAdapter := false } (.decI32 0#64) = false ∧ Instr.wf { hasSignedAdapter := false } (.decI64 0#64) = false := by
  decide

/-! ### The ops, one step each (95_test_vectors.md, L2) -/

theorem test_encu32_tie_rounds_up : seen 0x00000000000000203 = some (.result 0x7D02#64) := by decide
theorem test_encu32_ignores_upper_bits : seen 0x0FFFFFFFF00000003 = some (.result 0x5800#64) := by decide
theorem test_encu64_below_step_2 : seen 0x100000000017FFFFF = some (.result 0x7FFC#64) := by decide
theorem test_encu64_reads_upper_bits : seen 0x10000000100000003 = some (.result 0x7FFF#64) := by decide
theorem test_decu32_tie_to_even : seen 0x20000000000005C00 = some (.result 4#64) := by decide
theorem test_decu32_negative_is_zero : seen 0x20000000000008001 = some (.result 0#64) := by decide
theorem test_decu64_ignores_upper_bits : seen 0x3FFFFFFFFFFFF7400 = some (.result 32#64) := by decide
theorem test_decu64_max : seen 0x30000000000007FFF = some (.result 0x10000000#64) := by decide
theorem test_enci32_boundary_not_saturated : seen 0x400000000F8000000 = some (.result 0x8002#64) := by decide
theorem test_enci32_below_boundary : seen 0x400000000F7FFFFFF = some (.result 0x8001#64) := by decide
theorem test_enci64_min : seen 0x58000000000000000 = some (.result 0x8001#64) := by decide
theorem test_enci64_minus_three : seen 0x5FFFFFFFFFFFFFFFD = some (.result 0xA800#64) := by decide
theorem test_deci32_zero_extended : seen 0x60000000000008C00 = some (.result 0xFFFFFFE0#64) := by decide
theorem test_deci32_nar_is_zero : seen 0x60000000000008000 = some (.result 0#64) := by decide
theorem test_deci64_sign : seen 0x70000000000008001 = some (.result 0xFFFFFFFFF0000000#64) := by decide
theorem test_deci64_max : seen 0x70000000000007FFF = some (.result 0x10000000#64) := by decide
theorem test_encf32_minus_pi : seen 0x800000000C0490FDB = some (.result 0xA6DE#64) := by decide
theorem test_encf32_tie_at_2_pow_minus_27 : seen 0x80000000032000000 = some (.result 0x0002#64) := by decide
theorem test_encf64_just_above_tie : seen 0x93FF0008000000001 = some (.result 0x4001#64) := by decide
theorem test_encf64_subnormal : seen 0x90000000000000001 = some (.result 0x0001#64) := by decide
theorem test_decf32_least_negative : seen 0xA000000000000FFFF = some (.result 0xB1800000#64) := by decide
theorem test_decf32_nan_parameter : seenIn { nanF32 := 0x7F800001#32 } 0xA0000000000008000 = some (.result 0x7F800001#64) := by decide
theorem test_decf64_fraction : seen 0xB0000000000005401 = some (.result 0x4004010000000000#64) := by decide
theorem test_decf64_nan_parameter :
    seenIn { nanF64 := 0xFFF8000000000000#64 } 0xB0000000000008000 = some (.result 0xFFF8000000000000#64) := by decide
theorem test_rne_tie_odd : seen 0xC0000000000000003 = some (.result 1#64) := by decide
theorem test_rne_ignores_upper_bits : seen 0xCFFFFFFFFFFFFFFF8 = some (.result 0#64) := by decide
theorem test_regx_fields : seen 0xD0000000000006F00 = some (.result 0x4E00B0E1#64) := by decide
theorem test_regx_negative_no_exponent : seen 0xD000000000000FFFF = some (.result 0x10000912#64) := by decide
theorem test_reserved0xE_illegal : seen 0xEFFFFFFFFFFFFFFFF = some .illegalOp := by decide
theorem test_reserved0xF_illegal : seen 0xF0000000000000000 = some .illegalOp := by decide
theorem test_signed_op_without_adapter : seenIn { hasSignedAdapter := false } 0x400000000FFFFFFE0 = some .illegalOp := by decide

/-! ### The pipeline, one edge (95_test_vectors.md, P3) -/

/-- P3, edge 3. -/
theorem test_edge_takes_transaction :
    stagesAfter (twoStages (Ports.presenting 0x30000000000007400#68)) =
      some [{ vld := true, res := 0x20#64, ill := false }, { vld := true, res := 0x7FFC#64, ill := false }] := by decide
/-- P3, edge 4: an ILLEGAL_OP travels with its transaction and the machine goes on (R136). -/
theorem test_edge_carries_illegal :
    stagesAfter (twoStages (Ports.presenting 0xE0000000000000000#68)) =
      some [{ vld := true, res := 0#64, ill := true }, { vld := true, res := 0x7FFC#64, ill := false }] := by decide
/-- P3, edge 7: a reset edge clears every valid bit and drops the transaction beside it (R150). -/
theorem test_reset_edge_clears :
    (stagesAfter (twoStages { op := 1#4, a := 1#64, inValid := true, rst := true })).map (List.map Stage.vld) =
      some [false, false] := by decide

/-! ### The host's notation (R50; 95_test_vectors.md, E8 and P1) -/

theorem test_line_alias_and_negative :
    (parseLine "encode_signed32 -2147483648").bind (HostLine.word []) = some 0x40000000080000000#68 := by decide
theorem test_line_binds_name :
    parseLine "x = encu64 0b10_0000 ; comment" = some { bind := some "x", op := .encU64, operand := .literal 32 } := by decide
theorem test_line_takes_name :
    (parseLine "u=DECU64 x").bind (HostLine.word [("x", { y := 0x7400#64, illegal := false })]) = some 0x30000000000007400#68 := by
  decide
theorem test_line_refuses_negative : (parseLine "ENCU32 -3").bind (HostLine.word []) = none := by decide
theorem test_line_binds_no_literal : parseLine "_5 = ENCU32 1" = none ∧ parseLine "_x5 = ENCU32 1" ≠ none := by decide
theorem test_line_takes_latest_binding :
    (parseLine "DECU64 x").bind (HostLine.word [("x", { y := 2#64, illegal := false }), ("x", { y := 1#64, illegal := false })]) =
      some 0x30000000000000002#68 := by decide
theorem test_line_minus_zero : (parseLine "ENCU32 -0").bind (HostLine.word []) = some 0x00000000000000000#68 := by decide
theorem test_line_is_no_line : parseLine "RESERVED_0xE 0" = none := by decide

/-! ### Values (95_test_vectors.md, L2, "Format helpers") -/

theorem test_value_5401 : value 0x5401#16 = some (5121 / 2048) := by
  rw [show value 0x5401#16 = some (scaled 1 0x401 12) from rfl]
  norm_num [scaled]
theorem test_value_8001 : value 0x8001#16 = some (-268435456) := by
  rw [show value 0x8001#16 = some (-(scaled 28 0 0)) from rfl]
  norm_num [scaled]
theorem test_float_value : binary32.value 0x3FC00000 = .finite (3 / 2) := by
  rw [show binary32.value 0x3FC00000 = .finite (scaled 0 0x400000 23) from rfl]
  norm_num [scaled]

/-! ### Witnesses: values that meet the hypotheses of each statement that has some, at the boundaries of its clauses -/

/-- A pipelined block right after reset, in the default build but for its depth. -/
def pipelined (n : Nat) (script : List Ports) : State := { State.resetOf { latency := n } with script := script }

/-- Port values that assert reset and present a transaction. -/
def resetPorts : Ports := { op := 1#4, a := 1#64, inValid := true, rst := true }

/-- Port values that present ENCU64 32. -/
def encPorts : Ports := Ports.presenting 0x10000000000000020#68

theorem witness_DecoderReadsOpField :
    decode (0#3 ++ 1#1 ++ 5#64) = .encU64 5#64 ∧ decode (7#3 ++ 0#1 ++ 5#64) = .reserved0xE 5#64 ∧
    (∃ i, decodeNat (2 ^ 68 - 1) = .ok i) ∧ decodeNat (2 ^ 68) = .error .longerThanT68 :=
  ⟨by decide, by decide, ⟨_, rfl⟩, by rfl⟩

theorem witness_StepRunsDecodedTransaction :
    (pipelined 1 [encPorts]).script = encPorts :: [] ∧ encPorts.rst = false ∧
    (pipelined 0 [resetPorts]).script = resetPorts :: [] ∧ (pipelined 0 [resetPorts]).build.latency = 0 ∧
    State.reset.script = [] ∧ 2 ^ 68 - 1 < 2 ^ 68 := by decide

theorem witness_Encu64Result :
    (encBody 2).2 = (false, false) ∧ (encBody 511).2 = (false, false) ∧ encMag 511 = 0x7CFF#16 ∧
    encMag 0x01800001 = 0x7FFD#16 ∧ encMag 0x01FFFFFF = 0x7FFD#16 ∧ encMag 0x02000000 = 0x7FFD#16 ∧
    encMag 0x02FFFFFF = 0x7FFD#16 ∧ encMag 0x03000000 = 0x7FFE#16 ∧ encMag 0x08000000 = 0x7FFE#16 ∧
    encMag 0x08000001 = 0x7FFF#16 ∧ encMag (2 ^ 64 - 1) = 0x7FFF#16 ∧
    rneInc ((encBody 0x01FFFFFF).1.testBit 0) (encBody 0x01FFFFFF).2.1 (encBody 0x01FFFFFF).2.2 = true := by decide

theorem witness_Encu32Result : (0xFFFFFFFF#64).toNat < 2 ^ 32 ∧ encMag (0xFFFFFFFF#64).toNat = 0x7FFF#16 := by decide

theorem witness_Decu32Result :
    0x8000 ≤ (0x8000#64).toNat % 2 ^ 16 ∧ (0x7FFF#64).toNat % 2 ^ 16 < 0x8000 ∧ (0x7FFF#64).toNat % 2 ^ 16 = 0x7FFF ∧
    (0x17400#64).toNat % 2 ^ 16 = 0x7400 ∧ resDecU32 0x7FFF#64 = 0x10000000#64 ∧ resDecU32 0x8000#64 = 0#64 := by decide

theorem witness_Decu64Result :
    0x8000 ≤ (0xFFFF#64).toNat % 2 ^ 16 ∧ (0#64).toNat % 2 ^ 16 < 0x8000 ∧ (0x6F00#64).toNat % 2 ^ 16 = 0x6F00 ∧
    resDecU64 0x6F00#64 = 15#64 := by decide

theorem witness_Enci32Result :
    State.reset.build.hasSignedAdapter = true ∧ ((0xF7FFFFFF#64).setWidth 32).toInt = -134217729 ∧
    ((0xF8000000#64).setWidth 32).toInt = -134217728 ∧ ((0xFFFFFFFF#64).setWidth 32).toInt = -1 ∧
    ((0#64).setWidth 32).toInt = 0 ∧ ((0x80000000#64).setWidth 32).toInt = -2 ^ 31 ∧
    ((0x7FFFFFFF#64).setWidth 32).toInt = 2 ^ 31 - 1 ∧ ((0xFFFFFFE0#64).setWidth 32).toInt = -32 := by decide

theorem witness_Enci64Result :
    State.reset.build.hasSignedAdapter = true ∧ (0xFFFFFFFFF7FFFFFF#64).toInt = -134217729 ∧
    (0xFFFFFFFFF8000000#64).toInt = -134217728 ∧ (0#64).toInt = 0 ∧ (0x8000000000000000#64).toInt = -2 ^ 63 ∧
    (0x7FFFFFFFFFFFFFFF#64).toInt = 2 ^ 63 - 1 ∧ (0xFFFFFFFFFFFFFFFD#64).toInt = -3 := by decide

theorem witness_Deci32Result :
    State.reset.build.hasSignedAdapter = true ∧ (0x18000#64).setWidth 16 = 0x8000#16 ∧ 0x8000#16 < (0x8001#64).setWidth 16 ∧
    (0x7FFF#64).setWidth 16 < 0x8000#16 ∧ (0xFFFF#64).setWidth 16 = 0xFFFF#16 ∧ (0x8C00#64).setWidth 16 = 0x8C00#16 ∧
    resDecI32 0x8001#64 = 0xF0000000#64 ∧ resDecI32 0x8000#64 = 0#64 := by decide

theorem witness_Deci64Result :
    State.reset.build.hasSignedAdapter = true ∧ (0x8000#64).setWidth 16 = 0x8000#16 ∧ 0x8000#16 < (0xC000#64).setWidth 16 ∧
    (0x7FFF#64).setWidth 16 < 0x8000#16 ∧ resDecI64 0xC000#64 = 0xFFFFFFFFFFFFFFFF#64 := by decide

theorem witness_build_wf : Build.default.wf = true ∧ Build.wf { nanF32 := 0x7F800001#32, nanF64 := 0xFFF8000000000000#64 } = true := by
  decide

theorem witness_RegxFieldsReadBack :
    (0x10001#64).setWidth 16 ≠ 0x0000#16 ∧ (0x10001#64).setWidth 16 ≠ 0x8000#16 ∧ (0x7FFF#64).setWidth 16 = 0x7FFF#16 ∧
    (0x0001#64).setWidth 16 = 0x0001#16 ∧ (0x7400#64).setWidth 16 = 0x7400#16 ∧ resRegx 0x0001#64 = 0x0912#64 ∧
    resRegx 0x7FFF#64 = 0x070E#64 := by decide

theorem witness_ReservedOpsGiveZeroAndIllegal : State.reset.build.latency = 0 ∧ State.reset.stages = [] := by decide

theorem witness_SignedOpsReservedWithoutAdapter : (State.resetOf { hasSignedAdapter := false }).build.hasSignedAdapter = false := by
  decide

theorem witness_WellFormedOpsNeverIllegal : Instr.wf State.reset.build (.decI64 0x8000#64) = true := by decide

theorem witness_IllegalExactlyWhenReserved :
    (EXEC Build.default (.reserved0xF 5#64)).illegal = true ∧ (EXEC Build.default (.encI32 5#64)).illegal = false ∧
    (EXEC { hasSignedAdapter := false } (.encI32 5#64)).illegal = true ∧
    (EXEC { hasSignedAdapter := false } (.decU64 5#64)).illegal = false ∧
    (EXEC { hasSignedAdapter := false } (.encF32 5#64)).illegal = false := by decide

theorem witness_BitsAboveSliceIgnored :
    (0xFFFFFFFF00000003#64).setWidth 32 = (0x3#64).setWidth 32 ∧ (0xFFFFFFFFFFFF7400#64).setWidth 16 = (0x7400#64).setWidth 16 ∧
    (0xFFFFFFFFFFFFFFF8#64).setWidth 3 = (0x0#64).setWidth 3 := by decide

theorem witness_OutOfRangeInputsMapToValues :
    Build.default.hasSignedAdapter = true ∧ 0x08000000 < (0x08000001#64).toNat % 2 ^ 32 ∧ 0x02FFFFFF < (0x03000000#64).toNat % 2 ^ 32 ∧
    (0x08000000#64).toNat % 2 ^ 32 ≤ 0x08000000 ∧ ((0xF7FFFFFF#64).setWidth 32).toInt < -134217728 ∧
    0x08000000 < ((0x08000001#64).setWidth 32).toInt ∧ binary32.value 0x7FC00000 = .nan ∧
    binary32.value 0xFF800000 = .infinity true ∧ binary64.value 0x7FF0000000000000 = .infinity false ∧
    (0x8000#64).toNat % 2 ^ 16 = 0x8000 ∧ 0x8000 < (0x8001#64).toNat % 2 ^ 16 ∧
    EXEC Build.default (.encU32 0x08000000#64) = { y := 0x7FFE#64, illegal := false } ∧
    EXEC Build.default (.encF32 0x31800000#64) = { y := 0x0001#64, illegal := false } := by decide

theorem witness_OutOfRange_floats :
    binary32.value 0x4D800000 = .finite (2 ^ 28) ∧ binary64.value 0xC1B0000000000000 = .finite (-2 ^ 28) ∧
    binary32.value 0x31800000 = .finite (1 / 2 ^ 28) ∧ binary64.value 0xBE30000000000000 = .finite (-(1 / 2 ^ 28)) := by
  refine ⟨?_, ?_, ?_, ?_⟩
  · rw [show binary32.value 0x4D800000 = .finite (scaled 28 0 23) from rfl]; norm_num [scaled]
  · rw [show binary64.value 0xC1B0000000000000 = .finite (-(scaled 28 0 52)) from rfl]; norm_num [scaled]
  · rw [show binary32.value 0x31800000 = .finite (scaled (-28) 0 23) from rfl]; norm_num [scaled]
  · rw [show binary64.value 0xBE30000000000000 = .finite (-(scaled (-28) 0 52)) from rfl]; norm_num [scaled]

theorem witness_ClassesOfPatterns :
    classify 0x0000#16 = .zero ∧ classify 0x0001#16 = .positive ∧ classify 0x7FFF#16 = .positive ∧ classify 0x8000#16 = .nar ∧
    classify 0x8001#16 = .negative ∧ classify 0xFFFF#16 = .negative := by decide

/-- The positive patterns at the ends of the ranges, with their fields as 95_test_vectors.md prints them (for
ExponentBitAbsentForThree, FieldLayoutByRegime, ValueOfPattern). -/
theorem witness_positive_patterns :
    fields 0x0001#16 = { k := -14, e := 0, f := 0, fw := 0 } ∧ fields 0x0003#16 = { k := -13, e := 1, f := 0, fw := 0 } ∧
    fields 0x3800#16 = { k := -1, e := 1, f := 0x800, fw := 12 } ∧ fields 0x4000#16 = { k := 0, e := 0, f := 0, fw := 12 } ∧
    fields 0x7FFC#16 = { k := 12, e := 0, f := 0, fw := 0 } ∧ fields 0x7FFE#16 = { k := 13, e := 0, f := 0, fw := 0 } ∧
    fields 0x7FFF#16 = { k := 14, e := 0, f := 0, fw := 0 } ∧
    runLength (0x7FFD#16).toNat true 14 = 13 ∧ runLength (0x7FFE#16).toNat true 14 = 14 := by decide

theorem witness_ValueOfPattern_negative : 0x8001 ≤ (0x8001#16).toNat ∧ 1 ≤ (0x7FFF#16).toNat ∧ (0x7FFF#16).toNat ≤ 0x7FFF := by decide

theorem witness_ValueOrderIsSignedOrder :
    0xFFFF#16 ≠ NAR ∧ 0x0000#16 ≠ NAR ∧ (0xFFFF#16).toInt < (0x0000#16).toInt ∧ value 0x0000#16 = some 0 := by decide

theorem witness_AssembleIsPositRounding :
    (-28 : Int) ≤ -28 ∧ (-28 : Int) ≤ 27 ∧ 2 ^ 52 - 1 < 2 ^ 52 ∧ (27 : Int) ≤ 27 ∧ 0 < 2 ^ 0 ∧
    assemble (-28) (2 ^ 52 - 1) 52 = 0x0001#16 ∧ assemble 27 0 0 = 0x7FFE#16 ∧ assemble 27 1 23 = 0x7FFF#16 := by decide

theorem witness_EncMagRoundsByAssemble :
    encMag 1 = assemble 0 0 0 ∧ encMag (2 ^ 28 - 1) = assemble 27 (2 ^ 27 - 1) 27 ∧ encMag (2 ^ 28) = 0x7FFF#16 ∧
    (encMag 0x08000000).toNat ≤ (encMag 0x08000001).toNat := by decide

theorem witness_DecMagRoundsToEven :
    decMag 0x3000#16 = 0 ∧ decMag 0x3001#16 = 1 ∧ decMag 0x47FF#16 = 1 ∧ decMag 0x4800#16 = 2 ∧ decMag 0x5400#16 = 2 ∧
    (0x7FFF#16).toNat ≤ 0x7FFF := by decide

theorem witness_DecMagRangeAndOrder :
    decMag 0x5401#16 = 3 ∧ decMag 0x7FFE#16 = 0x04000000 ∧ decMag 0x7FFF#16 = 0x10000000 ∧
    (0x5401#16).toNat ≤ (0x7FFE#16).toNat := by decide

theorem witness_SignedAdapterOddSymmetric :
    (-2 : Int) ^ 63 ≤ -134217729 ∧ (-134217729 : Int) < -134217728 ∧ encSigned (-134217729) = neg16 (encMag 134217729) ∧
    encSigned (-1) = neg16 (encMag 1) ∧ 0x8001#16 ≠ 0x8000#16 ∧ decSigned 0x8001#16 = -2 ^ 28 := by decide

theorem witness_EncFloatIsPositRounding :
    0x3FC00000 < 2 ^ binary32.w ∧ binary32.value 0x3FC00000 = .finite (3 / 2) ∧ encFloat binary32 0x3FC00000 = 0x4800#16 ∧
    0x8000000000000000 < 2 ^ binary64.w ∧ binary64.value 0xC1B0000000000000 = .finite (-2 ^ 28) ∧
    encFloat binary64 0xC1B0000000000000 = MIN :=
  ⟨by decide, test_float_value, by decide, by decide, witness_OutOfRange_floats.2.1, by decide⟩

theorem witness_FloatDecoderExact : 0x8001#16 ≠ 0x0000#16 ∧ 0x8001#16 ≠ 0x8000#16 ∧ decFloat binary32 0 0x8001#16 = 0xCD800000 := by
  decide

theorem witness_ResultDependsOnTransactionAlone :
    (pipelined 2 []).build = { latency := 2 } ∧ (pipelined 2 []).stages.length = 2 ∧ State.reset.stages.length = 0 := by
  refine ⟨by rfl, by rfl, by rfl⟩

theorem witness_ExecChangesOnlyOutputs :
    exec (.encU64 32#64) State.reset = .next (State.reset.deliver { y := 0x7400#64, illegal := false }) ∧
    1 ≤ (pipelined 2 []).build.latency := ⟨by rfl, by decide⟩

theorem witness_CombinationalOutputs :
    State.reset.build.latency = 0 ∧ State.reset.stages = [] ∧
    exec (.reserved0xE 0#64) State.reset = .next (State.reset.deliver { y := 0#64, illegal := true }) := ⟨by decide, by decide, by rfl⟩

theorem witness_EdgeShiftsStages :
    (twoStages encPorts).build.latency = 2 ∧ (twoStages encPorts).stages.length = 2 ∧
    (twoStages encPorts).drive.ports.rst = false ∧ (twoStages resetPorts).drive.ports.rst = true := by decide

theorem witness_ResetEdgeDiscardsAndClears :
    1 ≤ (twoStages resetPorts).build.latency ∧ (twoStages resetPorts).script = resetPorts :: [] ∧ resetPorts.rst = true ∧
    (pipelined 0 [resetPorts]).build.latency = 0 ∧ (pipelined 0 [resetPorts]).script = resetPorts :: [] := by decide

theorem witness_PipelineDeliversInOrder :
    (pipelined 1 [encPorts]).build.latency = 1 ∧ 1 ≤ (pipelined 1 [encPorts]).script.length ∧
    (∀ p ∈ (pipelined 1 [encPorts]).script.take 1, p.rst = false) ∧ (pipelined 1 [encPorts]).stages.length = 1 ∧
    (pipelined 1 [encPorts]).script[1 - 1]? = some encPorts := by
  refine ⟨by decide, by decide, by decide, by rfl, by decide⟩

theorem witness_AfterResetResultsAreNew :
    ({ State.powerUp { latency := 2 } with script := [resetPorts, encPorts, encPorts] } : State).script =
      resetPorts :: [encPorts, encPorts] ∧
    resetPorts.rst = true ∧ (∀ q ∈ [encPorts, encPorts].take 2, q.rst = false) ∧ [encPorts, encPorts][2 - 2]? = some encPorts := by
  refine ⟨by rfl, by decide, by decide, by decide⟩

theorem witness_HostReadsItsResult :
    State.reset.stages.length = State.reset.build.latency ∧ (pipelined 2 []).stages.length = (pipelined 2 []).build.latency ∧
    Instr.wf State.reset.build (.encI32 1#64) = true ∧ Instr.wf State.reset.build (.reserved0xE 1#64) = false :=
  ⟨by decide, by rfl, by decide, by decide⟩

/-- A state of the invariant that no reset leads to directly: a result in the one stage (for StepKeepsInv). -/
theorem witness_StepKeepsInv :
    let s : State := { pipelined 1 [encPorts] with stages := [{ vld := true, res := 0x7400#64, ill := false }] }
    s.Inv ∧ ∃ t, step s = .next t := by
  refine ⟨⟨by decide, by decide, by decide, ?_⟩, ⟨_, step_eq _⟩⟩
  intro st hst _
  rw [List.mem_singleton.mp hst]
  exact ⟨.encU64 32#64, by decide⟩

theorem witness_ResetHasInv :
    Build.wf { latency := 2 } = true ∧ (twoStages resetPorts).build.wf = true ∧ 1 ≤ (twoStages resetPorts).build.latency ∧
    (twoStages resetPorts).drive.ports.rst = true ∧ ∃ t, step (twoStages resetPorts) = .next t :=
  ⟨by decide, by decide, by decide, by decide, ⟨_, step_eq _⟩⟩

theorem witness_HarmlessHostNeverSeesIllegal : (twoStages encPorts).Clean ∧ ∃ t, step (twoStages encPorts) = .next t := by
  refine ⟨⟨by decide, by decide, by decide, ?_, ?_⟩, ⟨_, step_eq _⟩⟩ <;> simp [twoStages]

theorem witness_HostLineWord :
    (0 : Int) ≤ 0 ∧ HostLine.word [] { bind := none, op := .rne, operand := .literal 7 } = some 0xC0000000000000007#68 ∧
    HostLine.word [] { bind := none, op := .encI64, operand := .literal (-1) } = some 0x5FFFFFFFFFFFFFFFF#68 ∧
    HostLine.word [] { bind := none, op := .encU32, operand := .literal (-1) } = none ∧
    ([("x", { y := 5#64, illegal := false })] : HostNames).lookup "x" = some { y := 5#64, illegal := false } := by decide

end Sys2Proof.Tests
end

section
/-! SUPPORT. Facts about resets and stages that the proofs of the scope statements need: what `State.resetOf` holds, when a step is a
reset edge, and where the stages after an edge come from. -/

namespace Sys2Proof.Machine

/-! ### The block after reset -/

@[simp] theorem resetOf_build (b : Build) : (State.resetOf b).build = b := rfl
@[simp] theorem resetOf_ports (b : Build) : (State.resetOf b).ports = State.reset.ports := rfl
@[simp] theorem resetOf_settled (b : Build) : (State.resetOf b).settled = { y := 0x0#64, illegal := false } := rfl
@[simp] theorem resetOf_stages (b : Build) :
    (State.resetOf b).stages = freeStages (fun _ => false) 0 b.latency := rfl

theorem reset_eq_resetOf_default : State.reset = State.resetOf Build.default := rfl

/-- The ports at reset ask for ENCU32 0 (notes/assumptions/4.md), whose EXEC pair is (0, 0) in every build (R74). -/
theorem EXEC_reset_ports (b : Build) : EXEC b (decode State.reset.ports.word) = { y := 0x0#64, illegal := false } := by
  have decoded : decode State.reset.ports.word = .encU32 0x0#64 := by decide
  have result : resEncU32 0x0#64 = 0x0#64 := by decide
  simp [decoded, result, EXEC, illegalIn, Instr.opcode, resultOf]

theorem inReset_eq_true_iff {s : State} : s.inReset = true ↔ s.build.latency ≠ 0 ∧ s.ports.rst = true := by
  simp [State.inReset]

/-! ### Valid bits and stages -/

/-- While no stage is valid, a pipelined build has `out_valid` 0. -/
theorem outValid_of_no_valid_stage {s : State} (hne : s.stages ≠ []) (h : ∀ st ∈ s.stages, st.vld = false) :
    s.outValid = some false := by
  have last : s.lastStage = some (s.stages.getLast hne) := List.getLast?_eq_some_getLast hne
  obtain ⟨-, -, valid⟩ := outputs_of_lastStage last
  rw [valid, h _ (List.getLast_mem hne)]

/-- After an edge without reset each stage is the new one or one that was there before (R23). -/
theorem mem_shiftStages {n : Nat} {v : Bool} {r : Result} {l : List Stage} {st : Stage} (h : st ∈ shiftStages n v r l) :
    st = { vld := v, res := r.y, ill := r.illegal } ∨ st ∈ l :=
  List.mem_cons.mp (List.mem_of_mem_take h)

theorem holdsExec_of_not_valid {b : Build} {st : Stage} (h : st.vld = false) : st.holdsExec b :=
  fun hv => absurd hv (by simp [h])

theorem holdsExec_of_freeStages {b : Build} {first n : Nat} :
    ∀ st ∈ freeStages (fun _ => false) first n, st.holdsExec b :=
  fun _ hst => holdsExec_of_not_valid (freeStages_vld hst)

theorem holdsExec_EXEC (b : Build) (v : Bool) (i : Instr) :
    Stage.holdsExec b { vld := v, res := (EXEC b i).y, ill := (EXEC b i).illegal } :=
  fun _ => ⟨i, rfl⟩

theorem shiftStages_holdsExec {b : Build} {n : Nat} {v : Bool} {l : List Stage} (i : Instr)
    (h : ∀ st ∈ l, st.holdsExec b) : ∀ st ∈ shiftStages n v (EXEC b i) l, st.holdsExec b := by
  intro st hst
  rcases mem_shiftStages hst with rfl | hold
  · exact holdsExec_EXEC b v i
  · exact h st hold

end Sys2Proof.Machine
end

section
/-! SUPPORT. The invariant of the machine: resets establish it and every step keeps it; with it the scope statements O56 to O58. -/

namespace Sys2Proof.Machine

/-! ### What establishes and what keeps the invariant -/

theorem resetOf_inv {b : Build} (hwf : b.wf = true) : (State.resetOf b).Inv where
  build_wf := hwf
  stage_count := by simp
  settled_exec := fun _ => by simp [EXEC_reset_ports]
  stages_exec := holdsExec_of_freeStages

/-- A reset edge of a pipelined build leads to the invariant from any state, unspecified stages and all (R150, R151). -/
theorem resetEdge_inv {s : State} (hwf : s.build.wf = true) (hlat : s.build.latency ≠ 0) : s.resetEdge.Inv where
  build_wf := hwf
  stage_count := by simp
  settled_exec := fun h0 => absurd h0 hlat
  stages_exec := holdsExec_of_freeStages

/-- Delivering the EXEC pair of the ports keeps the invariant. The earlier settled outputs play no part: a combinational build
overwrites them (R22), and the invariant of a pipelined build does not speak of them (R23). -/
theorem deliver_EXEC_inv {s : State} (hwf : s.build.wf = true) (hcount : s.stages.length = s.build.latency)
    (hstages : ∀ st ∈ s.stages, st.holdsExec s.build) : (s.deliver (EXEC s.build (decode s.ports.word))).Inv := by
  by_cases hlat : s.build.latency = 0
  · exact {
      build_wf := by simpa using hwf
      stage_count := by simpa [deliver_stages, hlat] using hcount
      settled_exec := fun _ => by simp [deliver_settled, hlat]
      stages_exec := by simpa [deliver_stages, hlat] using hstages }
  · exact {
      build_wf := by simpa using hwf
      stage_count := by simpa [deliver_stages, hlat] using shiftStages_length _ _ hcount
      settled_exec := fun h0 => absurd h0 (by simpa using hlat)
      stages_exec := by simpa [deliver_stages, hlat] using shiftStages_holdsExec _ hstages }

theorem step_inv {s t : State} (hs : s.Inv) (hstep : step s = .next t) : t.Inv := by
  obtain ⟨hwf, hcount, -, hstages⟩ := hs
  rw [step_eq] at hstep
  obtain rfl := Host.Outcome.next.inj hstep
  split
  case isTrue hreset =>
    obtain ⟨hlat, -⟩ := inReset_eq_true_iff.mp hreset
    exact resetEdge_inv (by simpa using hwf) hlat
  case isFalse =>
    simpa using deliver_EXEC_inv (s := s.drive) (by simpa using hwf) (by simpa using hcount) (by simpa using hstages)

/-! ### The statements -/

/-- Settles O57: a step is a reset edge, which establishes the invariant, or delivers the EXEC pair of the ports, which keeps it. -/
theorem stepKeepsInv : Obligations.StepKeepsInv := fun _ _ => step_inv

/-- Settles O56: the stages of `resetOf` are LATENCY free stages, each with its valid bit 0. -/
theorem resetState : Obligations.ResetState := by
  refine ⟨fun b => ⟨rfl, by simp, fun _ => freeStages_vld, fun hlat => ?_⟩, reset_eq_resetOf_default, rfl, rfl, rfl⟩
  have some_stage : (State.resetOf b).stages ≠ [] := List.ne_nil_of_length_pos (by simpa using show 0 < b.latency from hlat)
  exact outValid_of_no_valid_stage some_stage fun _ => freeStages_vld

/-- Settles O58: `State.reset` is `resetOf` of a well-formed build, and a reset edge establishes the invariant by itself. -/
theorem resetHasInv : Obligations.ResetHasInv := by
  refine ⟨reset_eq_resetOf_default ▸ resetOf_inv (by decide), fun _ => resetOf_inv, fun s t hwf hlat hrst hstep => ?_⟩
  have hpipe : s.drive.build.latency ≠ 0 := by simpa using Nat.one_le_iff_ne_zero.mp hlat
  rw [step_eq, if_pos (inReset_eq_true_iff.mpr ⟨hpipe, hrst⟩)] at hstep
  obtain rfl := Host.Outcome.next.inj hstep
  exact resetEdge_inv (by simpa using hwf) hpipe

end Sys2Proof.Machine
end

section
/-! SUPPORT. Facts about one transaction that the proofs of the state family need: the word the ports carry and how it decodes, the
EXEC pair by well-formedness, what a delivered pair does to the output ports and to the stages, and when a step is a transaction's own
meaning. -/

namespace Sys2Proof.Machine

/-! ### The word on the ports (R40) -/

/-- The two fields put together are the transaction word again: no bit is dropped. -/
@[simp] theorem presenting_word (t : TWord) : (Ports.presenting t).word = t := by
  apply BitVec.eq_of_getLsbD_eq
  intro i hi
  simp only [Ports.word, Ports.presenting, opField, operandField, BitVec.getLsbD_append, BitVec.getLsbD_extractLsb']
  by_cases low : i < 64
  · simp [low]
  · have high : i - 64 < 4 := by omega
    have sum : 64 + (i - 64) = i := by omega
    simp [low, high, sum]

@[simp] theorem presenting_inValid (t : TWord) : (Ports.presenting t).inValid = true := rfl
@[simp] theorem presenting_rst (t : TWord) : (Ports.presenting t).rst = false := rfl

theorem decodeOp_opcode (i : Instr) : decodeOp i.opcode i.operand = i := by
  cases i <;> simp [decodeOp, Instr.opcode, Instr.operand]

theorem decode_encode (i : Instr) : decode (encode i) = i := by
  obtain ⟨op, operand⟩ := Laws.Encodes.fields_of_append i.opcode i.operand
  rw [decode, encode, op, operand, decodeOp_opcode]

/-! ### The EXEC pair and well-formedness (R46, R47, R136) -/

/-- An op code is illegal in a build exactly when the transaction is not well formed there. -/
theorem illegalIn_opcode (b : Build) (i : Instr) : illegalIn b i.opcode = !i.wf b := by
  cases i <;> simp [illegalIn, Instr.opcode, Instr.wf]

theorem EXEC_of_wf {b : Build} {i : Instr} (h : i.wf b = true) : EXEC b i = { y := resultOf b i, illegal := false } := by
  simp [EXEC, illegalIn_opcode, h]

theorem EXEC_of_not_wf {b : Build} {i : Instr} (h : i.wf b = false) : EXEC b i = { y := 0x0#64, illegal := true } := by
  simp [EXEC, illegalIn_opcode, h]

/-- What the host takes from ports that show the EXEC pair of a transaction (R136). -/
theorem hostView_of_EXEC {t : State} {b : Build} {i : Instr} (hy : t.y = (EXEC b i).y) (hill : t.illegal = (EXEC b i).illegal)
    (hvalid : t.outValid ≠ some false) :
    t.hostView = if i.wf b = true then .result (resultOf b i) else .illegalOp := by
  cases hwf : i.wf b
  case true => simp [State.hostView, hvalid, hy, hill, EXEC_of_wf hwf]
  case false => simp [State.hostView, hvalid, hill, EXEC_of_not_wf hwf]

/-! ### A delivered pair on the outputs of a combinational build (R22) -/

theorem deliver_outputs {s : State} (r : Result) (hlat : s.build.latency = 0) (hstages : s.stages = []) :
    (s.deliver r).y = r.y ∧ (s.deliver r).illegal = r.illegal ∧ (s.deliver r).outValid = none := by
  have no_stage : (s.deliver r).stages = [] := by rw [deliver_stages, if_pos hlat, hstages]
  simpa [deliver_settled, hlat] using outputs_of_no_stage no_stage

/-- A combinational build keeps nothing of an earlier pair. -/
theorem deliver_deliver {s : State} (r r' : Result) (hlat : s.build.latency = 0) :
    (s.deliver r).deliver r' = s.deliver r' := by
  simp [State.deliver, hlat]

/-! ### A delivered pair in the stages of a pipelined build (R23) -/

theorem deliver_stages_first {s : State} (r : Result) (hlat : s.build.latency ≠ 0) :
    (s.deliver r).stages[0]? = some { vld := s.ports.inValid, res := r.y, ill := r.illegal } := by
  obtain ⟨n, hn⟩ := Nat.exists_eq_succ_of_ne_zero hlat
  rw [deliver_stages, if_neg hlat, hn, shiftStages_cons, List.getElem?_cons_zero]

theorem deliver_stages_succ {s : State} (r : Result) {j : Nat} (hj : j + 1 < s.build.latency) :
    (s.deliver r).stages[j + 1]? = s.stages[j]? := by
  obtain ⟨n, hn⟩ := Nat.exists_eq_add_of_lt hj
  rw [deliver_stages, if_neg (by omega), hn, shiftStages_cons, List.getElem?_cons_succ, List.getElem?_take_of_lt (by omega)]

theorem deliver_stages_tail {s : State} (r : Result) (hlat : s.build.latency ≠ 0) :
    (s.deliver r).stages.tail = s.stages.take (s.build.latency - 1) := by
  obtain ⟨n, hn⟩ := Nat.exists_eq_succ_of_ne_zero hlat
  rw [deliver_stages, if_neg hlat, hn, shiftStages_cons, List.tail_cons, Nat.succ_sub_one]

theorem deliver_stages_length {s : State} (r : Result) (hcount : s.stages.length = s.build.latency) :
    (s.deliver r).stages.length = s.build.latency := by
  rw [deliver_stages]
  split
  · exact hcount
  · exact shiftStages_length _ _ hcount

theorem lastStage_eq_getElem? (s : State) : s.lastStage = s.stages[s.stages.length - 1]? := List.getLast?_eq_getElem?

/-! ### When a step is a transaction's own meaning (R22, R150) -/

theorem inReset_eq_false_iff {s : State} : s.inReset = false ↔ s.build.latency = 0 ∨ s.ports.rst = false := by
  simp [State.inReset, or_iff_not_imp_left]

theorem step_eq_exec {s : State} (h : s.drive.build.latency = 0 ∨ s.drive.ports.rst = false) :
    step s = exec (decode s.drive.ports.word) s.drive := by
  simp [step, State.respond, inReset_eq_false_iff.mpr h]

theorem step_eq_deliver {s : State} (h : s.build.latency = 0 ∨ s.drive.ports.rst = false) :
    step s = .next (s.drive.deliver (EXEC s.build (decode s.drive.ports.word))) := by
  rw [step_eq_exec (by simpa using h), exec_eq, drive_build]

theorem step_eq_resetEdge {s : State} (hlat : s.build.latency ≠ 0) (hrst : s.drive.ports.rst = true) :
    step s = .next s.drive.resetEdge := by
  rw [step_eq, if_pos (inReset_eq_true_iff.mpr ⟨by simpa using hlat, hrst⟩)]

theorem step_of_presenting {s : State} {i : Instr} {rest : List Ports} (hscript : s.script = Ports.presenting (encode i) :: rest) :
    step s = .next (s.drive.deliver (EXEC s.build i)) := by
  have hports := drive_ports_cons hscript
  rw [step_eq_deliver (.inr (by rw [hports, presenting_rst])), hports, presenting_word, decode_encode]

/-- One rising edge without reset moves the content of a stage to the next one. -/
theorem step_moves_stage {s t : State} {j : Nat} (hstep : step s = .next t) (hrst : s.drive.ports.rst = false)
    (hj : j + 1 < s.build.latency) : t.stages[j + 1]? = s.stages[j]? := by
  obtain rfl := Host.Outcome.next.inj ((step_eq_deliver (.inr hrst)).symm.trans hstep)
  rw [deliver_stages_succ _ (by simpa using hj), drive_stages]

/-! ### Waiting for a result (R152) -/

theorem runSteps_zero (s : State) : runSteps 0 s = .next s := rfl

theorem runSteps_succ {s t : State} (k : Nat) (h : step s = .next t) : runSteps (k + 1) s = runSteps k t := by
  simp only [runSteps, Host.Core.run]
  rw [show core.step s = .next t from h]

/-- A host that has nothing more to present and waits finds what a stage holds in the last stage, as many edges later as there are
stages behind it. -/
theorem runSteps_reaches_lastStage {s : State} {j k : Nat} {st : Stage} (hquiet : s.script = [])
    (hcount : s.stages.length = s.build.latency) (hst : s.stages[j]? = some st) (hjk : j + k + 1 = s.build.latency) :
    ∃ t, runSteps k s = .next t ∧ t.lastStage = some st := by
  induction k generalizing s j with
  | zero =>
    refine ⟨s, runSteps_zero s, ?_⟩
    have last : s.stages.length - 1 = j := by omega
    rw [lastStage_eq_getElem?, last, hst]
  | succ k ih =>
    have hrst : s.drive.ports.rst = false := by rw [drive_ports_nil hquiet, quiet_rst]
    have hstep := step_eq_deliver (.inr hrst)
    have moved := step_moves_stage hstep hrst (j := j) (by omega)
    rw [runSteps_succ k hstep]
    refine ih (j := j + 1) (by simp [hquiet]) ?_ (moved.trans hst) (by simp; omega)
    simpa using deliver_stages_length _ (s := s.drive) (by simpa using hcount)

/-- After the wait the output ports of any build show the EXEC pair of the one transaction presented: the first step settles it, or
loads it into stage 1, from where LATENCY - 1 quiet edges carry it to the last stage. -/
theorem runSteps_shows_EXEC {s : State} {i : Instr} (hscript : s.script = [Ports.presenting (encode i)])
    (hcount : s.stages.length = s.build.latency) :
    ∃ t, runSteps s.waitSteps s = .next t ∧ t.y = (EXEC s.build i).y ∧ t.illegal = (EXEC s.build i).illegal ∧
      t.outValid ≠ some false := by
  have first := step_of_presenting hscript
  by_cases hlat : s.build.latency = 0
  case pos =>
    have wait : s.waitSteps = 0 + 1 := by simp [State.waitSteps, hlat]
    obtain ⟨y, illegal, valid⟩ := deliver_outputs (s := s.drive) (EXEC s.build i) (by simpa using hlat)
      (by simpa [hlat] using hcount)
    rw [wait, runSteps_succ 0 first]
    exact ⟨_, runSteps_zero _, y, illegal, by simp [valid]⟩
  case neg =>
    have wait : s.waitSteps = (s.build.latency - 1) + 1 := by unfold State.waitSteps; omega
    have entered := deliver_stages_first (s := s.drive) (EXEC s.build i) (by simpa using hlat)
    have count := deliver_stages_length (s := s.drive) (EXEC s.build i) (by simpa using hcount)
    rw [wait, runSteps_succ _ first]
    obtain ⟨t, run, last⟩ := runSteps_reaches_lastStage (k := s.build.latency - 1) (by simp [hscript])
      (by simpa using count) entered (by simp; omega)
    obtain ⟨y, illegal, valid⟩ := outputs_of_lastStage last
    exact ⟨t, run, y, illegal, by simp [valid, drive_ports_cons hscript]⟩

end Sys2Proof.Machine
end

section
/-! SUPPORT. The statements of the state family O46 to O51 and O55, with O5: each is read off `exec_eq` or `step_eq` by the facts about
a delivered pair. -/

namespace Sys2Proof.Machine

/-- Settles O46: the pair is EXEC of the transaction in the build, whatever else the state holds. -/
theorem resultDependsOnTransactionAlone : Obligations.ResultDependsOnTransactionAlone := by
  intro b i
  refine ⟨EXEC b i, ?_⟩
  rintro s rfl hcount
  refine ⟨_, exec_eq i s, fun hlat => ?_, fun hlat => ?_⟩
  · obtain ⟨y, illegal, -⟩ := deliver_outputs (EXEC s.build i) hlat (List.length_eq_zero_iff.mp (hcount.trans hlat))
    exact ⟨y, illegal⟩
  · exact ⟨_, List.head?_eq_getElem?.trans (deliver_stages_first _ (Nat.one_le_iff_ne_zero.mp hlat)), rfl, rfl⟩

/-- Settles O47: `exec` delivers one pair, and delivering writes the settled outputs or the stages alone. -/
theorem execChangesOnlyOutputs : Obligations.ExecChangesOnlyOutputs := by
  intro i s t hexec
  obtain rfl := Host.Outcome.next.inj ((exec_eq i s).symm.trans hexec)
  refine ⟨deliver_build s _, deliver_ports s _, deliver_script s _, deliver_freeIx s _, fun hlat => ?_, fun hlat => ?_⟩
  · rw [deliver_stages, if_pos hlat]
  · have hpipe := Nat.one_le_iff_ne_zero.mp hlat
    exact ⟨by rw [deliver_settled, if_neg hpipe], deliver_stages_tail _ hpipe⟩

/-- Settles O49: a combinational build is never in reset, so a step settles its outputs to EXEC of the driven ports. -/
theorem combinationalOutputs : Obligations.CombinationalOutputs := by
  intro s hlat hstages
  refine ⟨_, step_eq_deliver (.inl hlat), ?_⟩
  obtain ⟨y, illegal, valid⟩ := deliver_outputs (s := s.drive) (EXEC s.build (decode s.drive.ports.word))
    (by simpa using hlat) (by simpa using hstages)
  rw [y, illegal, deliver_ports]
  exact ⟨rfl, valid⟩

/-- Settles O50: the second pair overwrites the first, the only trace of the earlier transaction. -/
theorem earlierTransactionHasNoEffect : Obligations.EarlierTransactionHasNoEffect := by
  intro i j s t hlat hexec
  obtain rfl := Host.Outcome.next.inj ((exec_eq j s).symm.trans hexec)
  rw [exec_eq, exec_eq, deliver_build, deliver_deliver _ _ hlat]

/-- Settles O51: an edge with reset fills in free stages, one without delivers EXEC of the driven ports to stage 1. -/
theorem edgeShiftsStages : Obligations.EdgeShiftsStages := by
  rintro s L rfl hlat hcount
  have hpipe := Nat.one_le_iff_ne_zero.mp hlat
  have shows_last {t : State} (ht : t.stages.length = s.build.latency) (last : Stage)
      (h : t.stages[s.build.latency - 1]? = some last) :
      t.outValid = some last.vld ∧ t.y = last.res ∧ t.illegal = last.ill := by
    obtain ⟨y, illegal, valid⟩ := outputs_of_lastStage (by rwa [lastStage_eq_getElem?, ht])
    exact ⟨valid, y, illegal⟩
  cases hrst : s.drive.ports.rst
  case true =>
    have count : s.drive.resetEdge.stages.length = s.build.latency := by simp
    exact ⟨_, step_eq_resetEdge hpipe hrst, count, fun _ _ => freeStages_vld, nofun, shows_last count⟩
  case false =>
    have hstep := step_eq_deliver (.inr hrst)
    have count := deliver_stages_length (EXEC s.build (decode s.drive.ports.word)) (s := s.drive) (by simpa using hcount)
    rw [drive_build] at count
    exact ⟨_, hstep, count, nofun, fun _ => ⟨deliver_stages_first _ (by simpa using hpipe), fun _ => step_moves_stage hstep hrst⟩,
      shows_last count⟩

/-- Settles O55: after the wait the ports show the transaction's EXEC pair, from which the host takes the result or ILLEGAL_OP. -/
theorem hostReadsItsResult : Obligations.HostReadsItsResult := by
  intro s i hcount
  obtain ⟨t, run, y, illegal, valid⟩ := runSteps_shows_EXEC (s := { s with script := [Ports.presenting (encode i)] }) rfl hcount
  exact ⟨t, run, hostView_of_EXEC y illegal valid⟩

/-- Settles O5: driving takes the head of the list, or quiets the ports; without a reset the step is `exec` of the word they carry. -/
theorem stepRunsDecodedTransaction : Obligations.StepRunsDecodedTransaction := by
  have runs_head (s : State) (p : Ports) (rest : List Ports) (hscript : s.script = p :: rest)
      (hrst : s.build.latency = 0 ∨ p.rst = false) : step s = exec (decode p.word) { s with ports := p, script := rest } := by
    have driven : s.drive = { s with ports := p, script := rest } := by simp [State.drive, hscript]
    rw [step_eq_exec (by simpa [driven] using hrst), driven]
  refine ⟨runs_head, fun s hscript => ?_, fun s n w _ => ?_⟩
  · have driven : s.drive = { s with ports := s.ports.quiet } := by simp [State.drive, hscript]
    rw [step_eq_exec (.inr (by rw [driven, quiet_rst])), driven, quiet_word]
    rfl
  · have hstep := runs_head (s.withFetchWord n w) _ _ rfl (.inr (presenting_rst _))
    rw [presenting_word] at hstep
    refine ⟨_, hstep.trans (exec_eq _ _), ?_⟩
    rw [deliver_ports]
    exact ⟨hstep, presenting_word _, rfl, rfl⟩

/-- Settles O48: a reset edge and a delivered pair both keep the build and the list that driving left. -/
theorem stepGoesOnWithSameBuild : Obligations.StepGoesOnWithSameBuild := by
  intro s
  refine ⟨_, step_eq s, ?_⟩
  split
  · exact ⟨drive_build s, drive_script s⟩
  · exact ⟨(deliver_build _ _).trans (drive_build s), (deliver_script _ _).trans (drive_script s)⟩

end Sys2Proof.Machine
end

section
/-! SUPPORT. Facts about the encoding that the proofs of the encoding family need: the two fields of a transaction word, what `exec` does
where the transaction is not well formed, and the operand port of a host line. -/

namespace Sys2Proof.Machine

/-! ### The decoder on the two fields (R40, R42) -/

theorem decode_append (op : OpCode) (a : Word) : decode (op ++ a) = decodeOp op a := by
  obtain ⟨op_eq, operand_eq⟩ := Laws.Encodes.fields_of_append op a
  rw [decode, op_eq, operand_eq]

/-- Each of the 16 op codes has a row, and the row has that op code (R42). -/
@[simp] theorem opcode_decodeOp (op : OpCode) (a : Word) : (decodeOp op a).opcode = op := by
  obtain ⟨k⟩ := op
  fin_cases k <;> rfl

/-- Every row hands the operand port on whole. -/
@[simp] theorem operand_decodeOp (op : OpCode) (a : Word) : (decodeOp op a).operand = a := by
  unfold decodeOp
  split <;> rfl

theorem opcode_decode (t : TWord) : (decode t).opcode = opField t := opcode_decodeOp _ _
theorem operand_decode (t : TWord) : (decode t).operand = operandField t := operand_decodeOp _ _

theorem encode_decode (t : TWord) : encode (decode t) = t := by
  rw [encode, opcode_decode, operand_decode]
  exact presenting_word t

theorem decodeNat_eq_error_iff (v : Nat) : decodeNat v = .error .longerThanT68 ↔ 2 ^ 68 ≤ v := by
  unfold decodeNat
  split
  case isTrue short => simpa using short
  case isFalse long => simpa using long

/-! ### A transaction that is not well formed (R46, R47) -/

theorem exec_of_not_wf {i : Instr} {s : State} (h : i.wf s.build = false) :
    exec i s = .next (s.deliver { y := 0x0#64, illegal := true }) := by
  rw [exec_eq, EXEC_of_not_wf h]

/-! ### The operand port of a host line (R43, R50) -/

@[simp] theorem instr_operand (m : Mnemonic) (a : Word) : (m.instr a).operand = a := by cases m <;> rfl

theorem sliceWidth_le (m : Mnemonic) : m.sliceWidth ≤ 64 := by cases m <;> decide

theorem takesNegative_iff (m : Mnemonic) : m.takesNegative = true ↔ m = .encI32 ∨ m = .encI64 := by
  cases m <;> decide

/-- The word of a line is its op code and its operand port put together, where the line has an operand port. -/
theorem word_of_operandPort {names : HostNames} {l : HostLine} {a : Word} (h : l.operandPort names = some a) :
    l.word names = some ((l.op.instr a).opcode ++ a) := by
  simp [HostLine.word, HostLine.instr, h, encode]

theorem word_of_no_operandPort {names : HostNames} {l : HostLine} (h : l.operandPort names = none) : l.word names = none := by
  simp [HostLine.word, HostLine.instr, h]

/-- `bitsW(literal)` in the slice of `a`, every other bit 0. -/
def literalPort (m : Mnemonic) (v : Int) : Word := (BitVec.ofInt m.sliceWidth v).setWidth 64

theorem operandPort_literal {names : HostNames} {l : HostLine} {v : Int} (h : l.operand = .literal v) :
    l.operandPort names = if v < 0 ∧ l.op.takesNegative = false then none else some (literalPort l.op v) := by
  simp [HostLine.operandPort, h, literalPort]

theorem operandPort_name {names : HostNames} {l : HostLine} {n : String} {r : Result} (h : l.operand = .name n)
    (bound : names.lookup n = some r) (legal : r.illegal = false) : l.operandPort names = some r.y := by
  simp [HostLine.operandPort, h, bound, legal]

/-- The slice is no wider than the port, so that placing the literal cuts nothing off. -/
theorem literalPort_toNat (m : Mnemonic) (v : Int) : ((literalPort m v).toNat : Int) = v % 2 ^ m.sliceWidth := by
  have fits : (BitVec.ofInt m.sliceWidth v).toNat < 2 ^ 64 :=
    (BitVec.isLt _).trans_le (Nat.pow_le_pow_right (by decide) (sliceWidth_le m))
  rw [literalPort, BitVec.toNat_setWidth, Nat.mod_eq_of_lt fits, BitVec.toNat_ofInt,
    Int.toNat_of_nonneg (Int.emod_nonneg _ (by positivity))]
  push_cast
  rfl

theorem literalPort_lt (m : Mnemonic) (v : Int) : (literalPort m v).toNat < 2 ^ m.sliceWidth := by
  have h := Int.emod_lt_of_pos v (show (0 : Int) < 2 ^ m.sliceWidth by positivity)
  rw [← literalPort_toNat] at h
  exact_mod_cast h

end Sys2Proof.Machine
end

section
/-! SUPPORT. What a result function reads of its operand (R43, R44) and how far up in `y` its result reaches (R45). -/

namespace Sys2Proof.Machine

/-! ### The slice a result function reads -/

/-- Two transactions of one op code have one EXEC pair when they have one result. -/
theorem EXEC_congr {b : Build} {i j : Instr} (hop : i.opcode = j.opcode) (hres : resultOf b i = resultOf b j) :
    EXEC b i = EXEC b j := by
  rw [EXEC, EXEC, hop, hres]

theorem opU32_congr {a a' : Word} (h : a.setWidth 32 = a'.setWidth 32) : opU32 a = opU32 a' := by
  rw [opU32, opU32, extractLow_eq_setWidth, extractLow_eq_setWidth, h]

theorem opI32_congr {a a' : Word} (h : a.setWidth 32 = a'.setWidth 32) : opI32 a = opI32 a' := by
  rw [opI32_eq, opI32_eq, h]

theorem opPattern_congr {a a' : Word} (h : a.setWidth 16 = a'.setWidth 16) : opPattern a = opPattern a' := by
  rw [opPattern_eq, opPattern_eq, h]

/-- `L`, `G` and `S` are the three bits of the slice. -/
theorem resRne_eq (a : Word) :
    resRne a = placeBit (rneInc ((a.setWidth 3).getLsbD 0) ((a.setWidth 3).getLsbD 1) ((a.setWidth 3).getLsbD 2)) := by
  simp [resRne, opL, opG, opS]

/-! ### How far up a result reaches -/

/-- A bound of an op's result bounds `y`, since ILLEGAL_OP drives 0. -/
theorem EXEC_y_lt {b : Build} {i : Instr} {n : Nat} (h : (resultOf b i).toNat < n) : (EXEC b i).y.toNat < n := by
  unfold EXEC
  split
  · exact Nat.zero_lt_of_lt h
  · exact h

theorem placePattern_lt (p : Pattern) : (placePattern p).toNat < 2 ^ 16 := by
  rw [placePattern_toNat]
  exact p.isLt

theorem placeU32_lt (u : Nat) : (placeU32 u).toNat < 2 ^ 32 := by
  rw [placeU32_toNat]
  exact Nat.mod_lt _ (by decide)

/-- A vector of few bits stays below their power of two when it is widened. -/
theorem setWidth_toNat_lt {w n : Nat} (v : Nat) (x : BitVec w) (h : w ≤ n) : (x.setWidth v).toNat < 2 ^ n := by
  rw [BitVec.toNat_setWidth]
  exact (Nat.mod_le _ _).trans_lt (x.isLt.trans_le (Nat.pow_le_pow_right (by decide) h))

theorem placeI32_lt (v : Int) : (placeI32 v).toNat < 2 ^ 32 := setWidth_toNat_lt 64 _ le_rfl
theorem placeBit_lt (b : Bool) : (placeBit b).toNat < 2 ^ 1 := setWidth_toNat_lt 64 _ le_rfl

theorem ofNat_toNat_lt {u n : Nat} (h : u < 2 ^ n) : (BitVec.ofNat 64 u).toNat < 2 ^ n := by
  rw [BitVec.toNat_ofNat]
  exact (Nat.mod_le _ _).trans_lt h

theorem or_toNat_lt {x y : Word} {n : Nat} (hx : x.toNat < 2 ^ n) (hy : y.toNat < 2 ^ n) : (x ||| y).toNat < 2 ^ n := by
  rw [BitVec.toNat_or]
  exact Nat.or_lt_two_pow hx hy

theorem shiftLeft_toNat_lt {x : Word} {k m n : Nat} (hx : x.toNat < 2 ^ m) (hmn : m + k ≤ n) : (x <<< k).toNat < 2 ^ n := by
  rw [BitVec.toNat_shiftLeft]
  exact (Nat.mod_le _ _).trans_lt ((Nat.shiftLeft_lt hx).trans_le (Nat.pow_le_pow_right (by decide) (by omega)))

/-! ### The fields of a pattern fit the fields of REGX (R59, R126) -/

theorem fields_e_lt (p : Pattern) : (fields p).e < 2 ^ 1 := by
  simp only [fields, fieldsFrom]
  split
  · exact Bool.toNat_lt _
  · decide

theorem fields_fw_lt (p : Pattern) : (fields p).fw < 2 ^ 4 := by
  simp only [fields, fieldsFrom]
  omega

theorem fields_f_lt (p : Pattern) : (fields p).f < 2 ^ (fields p).fw := Nat.mod_lt _ (Nat.two_pow_pos _)

theorem fraction12_lt (p : Pattern) : fraction12 (fields p) < 2 ^ 15 :=
  (Nat.shiftLeft_lt (fields_f_lt p)).trans_le (Nat.pow_le_pow_right (by decide) (by have := fields_fw_lt p; omega))

/-- Bit 31 of the packed word and those above it are 0 (R45, R126). -/
theorem regxWord_lt (p : Pattern) : (regxWord p).toNat < 2 ^ 31 := by
  have sign := shiftLeft_toNat_lt (k := 28) (n := 31) (placeBit_lt (signBit p)) (by decide)
  unfold regxWord
  split
  · exact or_toNat_lt sign (by decide)
  · have regime : ((BitVec.ofInt 5 (fields (magnitude p)).k).setWidth 64).toNat < 2 ^ 31 := setWidth_toNat_lt 64 _ (by decide)
    have exponent := shiftLeft_toNat_lt (k := 5) (n := 31) (ofNat_toNat_lt (fields_e_lt (magnitude p))) (by decide)
    have scale := shiftLeft_toNat_lt (k := 6) (n := 31)
      (setWidth_toNat_lt 64 (BitVec.ofInt 6 (fields (magnitude p)).scale) le_rfl) (by decide)
    have width := shiftLeft_toNat_lt (k := 12) (n := 31) (ofNat_toNat_lt (fields_fw_lt (magnitude p))) (by decide)
    have fraction := shiftLeft_toNat_lt (k := 16) (n := 31) (ofNat_toNat_lt (fraction12_lt (magnitude p))) (by decide)
    have present := shiftLeft_toNat_lt (k := 30) (n := 31) (placeBit_lt (expPresent (magnitude p))) (by decide)
    exact or_toNat_lt (or_toNat_lt (or_toNat_lt (or_toNat_lt (or_toNat_lt (or_toNat_lt regime exponent) scale) width) fraction)
      sign) present

end Sys2Proof.Machine
end

section
/-! SUPPORT. The statements of the encoding family O1 to O3, O20, O21, O24, O25 and O60. -/

namespace Sys2Proof.Machine

/-- Settles O1: the two fields of the encoded word are the op code and the operand, and the row of that op code is the instruction. -/
theorem decodeOfEncode : Obligations.DecodeOfEncode := decode_encode

/-- Settles O2: the decoded instruction keeps both fields, which make up the word. -/
theorem encodeOfDecode : Obligations.EncodeOfDecode := encode_decode

/-- Settles O3: `grp` and `w` put together are the op code, so that each pair of values picks one row. -/
theorem decoderReadsOpField : Obligations.DecoderReadsOpField := by
  refine ⟨fun t => ⟨opcode_decode t, operand_decode t⟩, fun grp w a => ?_, decodeNat_eq_error_iff⟩
  dsimp only
  rw [decode_append (grp ++ w) a]
  have w_cases := BitVec.eq_zero_or_eq_one w
  refine ⟨?_, ?_, ?_, ?_, ?_, ?_, ?_, ?_⟩ <;> (rintro rfl; obtain rfl | rfl := w_cases <;> rfl)

/-- Settles O24: each result function reads the operand through its slice alone. -/
theorem bitsAboveSliceIgnored : Obligations.BitsAboveSliceIgnored := by
  refine ⟨fun b a a' => ⟨fun slice => ?_, fun slice => ?_, fun slice => ?_, rfl, rfl⟩, fun b => ?_⟩
  · have unsigned := opU32_congr slice
    have signed := opI32_congr slice
    exact ⟨EXEC_congr rfl (congrArg (fun u => placePattern (encMag u)) unsigned),
      EXEC_congr rfl (congrArg (fun i => placePattern (encSigned i)) signed),
      EXEC_congr rfl (congrArg (fun u => placePattern (encFloat binary32 u)) unsigned)⟩
  · have pattern := opPattern_congr slice
    refine ⟨EXEC_congr rfl ?_, EXEC_congr rfl ?_, EXEC_congr rfl ?_, EXEC_congr rfl ?_, EXEC_congr rfl ?_, EXEC_congr rfl ?_,
      EXEC_congr rfl ?_⟩ <;>
      simp only [resultOf, resDecU32, resDecU64, resDecI32, resDecI64, resDecF32, resDecF64, resRegx, pattern]
  · exact EXEC_congr rfl (by simp only [resultOf, resRne_eq, slice])
  · have upper : resEncU32 0xFFFFFFFF00000003#64 = 0x5800#64 := by decide
    have lower : resEncU32 0x3#64 = 0x5800#64 := by decide
    rw [EXEC_of_wf rfl, EXEC_of_wf rfl, resultOf, resultOf, upper, lower]
    exact ⟨rfl, rfl⟩

/-- Settles O25: `y` is 0 or the op's result, which is placed in the low bits by zero extension. -/
theorem narrowResultsZeroExtended : Obligations.NarrowResultsZeroExtended := fun b a => by
  have reserved (i : Instr) (h : i.wf b = false) : (EXEC b i).y = 0#64 := by rw [EXEC_of_not_wf h]
  exact ⟨EXEC_y_lt (placePattern_lt _), EXEC_y_lt (placePattern_lt _), EXEC_y_lt (placePattern_lt _),
    EXEC_y_lt (placePattern_lt _), EXEC_y_lt (placePattern_lt _), EXEC_y_lt (placePattern_lt _), EXEC_y_lt (placeU32_lt _),
    EXEC_y_lt (placeI32_lt _), EXEC_y_lt (placeU32_lt _), EXEC_y_lt (placeBit_lt _), EXEC_y_lt (regxWord_lt _),
    reserved _ rfl, reserved _ rfl⟩

/-- Settles O60: a line's word is that of its operand port, which a literal fills modulo 2^W, a negative one of another op leaves
absent, and a name takes from the `y` it is bound to. -/
theorem hostLineWord : Obligations.HostLineWord := by
  refine ⟨fun l names v hlit allowed => ?_, fun l names v hlit negative not32 not64 => ?_, fun l names n r hname bound legal => ?_⟩
  · have accepted : ¬(v < 0 ∧ l.op.takesNegative = false) := by
      rintro ⟨negative, refused⟩
      obtain nonneg | signed := allowed
      · omega
      · simp [(takesNegative_iff _).mpr signed] at refused
    refine ⟨literalPort l.op v, word_of_operandPort ?_, literalPort_lt _ _, ?_⟩
    · rw [operandPort_literal hlit, if_neg accepted]
    · rw [literalPort_toNat, Int.emod_emod_of_dvd _ dvd_rfl]
  · have refused : l.op.takesNegative = false := by
      simp [← Bool.not_eq_true, takesNegative_iff, not32, not64]
    apply word_of_no_operandPort
    rw [operandPort_literal hlit, if_pos ⟨negative, refused⟩]
  · exact word_of_operandPort (operandPort_name hname bound legal)

/-- Settles O20: no build has a row for 0xE and 0xF, and a combinational build shows the pair that ILLEGAL_OP delivers. -/
theorem reservedOpsGiveZeroAndIllegal : Obligations.ReservedOpsGiveZeroAndIllegal := by
  refine ⟨fun a => ⟨decode_append _ a, decode_append _ a⟩, fun a s => ⟨exec_of_not_wf rfl, exec_of_not_wf rfl⟩,
    fun a s hlat hstages => ⟨_, exec_of_not_wf rfl, ?_⟩⟩
  obtain ⟨y, illegal, valid⟩ := deliver_outputs { y := 0x0#64, illegal := true } hlat hstages
  exact ⟨y, illegal, by simp [State.hostView, illegal, valid]⟩

/-- Settles O21: the four signed ops are well formed in a build with the adapter only. -/
theorem signedOpsReservedWithoutAdapter : Obligations.SignedOpsReservedWithoutAdapter := fun _ _ without =>
  ⟨exec_of_not_wf without, exec_of_not_wf without, exec_of_not_wf without, exec_of_not_wf without⟩

end Sys2Proof.Machine
end

section
/-! SUPPORT. The regimes of the positive patterns (R59 to R61) for a field that starts at any bit `top`: which numbers have the
regime value `k`, and what field decoding gives there. -/

namespace Sys2Proof.Machine

/-! ### The regime run -/

/-- A run is as long as the bits that equal `r0` reach down, ended by one that differs or by the end of the pattern. -/
theorem runLength_eq {p top r : Nat} {r0 : Bool} (hr : r ≤ top + 1)
    (run : ∀ j, j ≤ top → top < j + r → p.testBit j = r0) (stop : r ≤ top → p.testBit (top - r) ≠ r0) :
    runLength p r0 top = r := by
  induction top generalizing r with
  | zero =>
    obtain rfl | rfl : r = 0 ∨ r = 1 := by omega
    · rw [runLength, if_neg (stop le_rfl)]
    · rw [runLength, if_pos (run 0 le_rfl (by omega))]
  | succ top ih =>
    cases r with
    | zero => rw [runLength, if_neg (by simpa using stop (by omega))]
    | succ r =>
      have below : runLength p r0 top = r :=
        ih (by omega) (fun j _ _ => run j (by omega) (by omega)) (fun _ => by simpa using stop (by omega))
      rw [runLength, if_pos (run (top + 1) le_rfl (by omega)), below]

/-! ### The patterns of one regime value -/

/-- The least number whose regime value is `k`: the run and its terminator with only zeros below them. -/
def regimeStart (top : Nat) (k : Int) : Nat :=
  if k < 0 then 2 ^ (top + k).toNat else 2 ^ (top + 1) - 2 ^ (top - k).toNat

/-- How long the run of the regime value `k` is. -/
def regimeRun (k : Int) : Nat := if k < 0 then (-k).toNat else k.toNat + 1

/-- How many bits the run of the regime value `k` leaves below its terminator. -/
def regimeRoom (top : Nat) (k : Int) : Nat := top - regimeRun k

/-- `p` is the number `x` places above the least one of the regime value `k`. -/
structure InRegime (top : Nat) (k : Int) (x p : Nat) : Prop where
  lo : -top ≤ k
  hi : k ≤ top
  room : x < 2 ^ regimeRoom top k
  eq : p = regimeStart top k + x

theorem regime_cases {top : Nat} {k : Int} (lo : -top ≤ k) (hi : k ≤ top) :
    (∃ n : Nat, 1 ≤ n ∧ n ≤ top ∧ k = -n) ∨ ∃ n : Nat, n ≤ top ∧ k = n := by
  obtain neg | nonneg := lt_or_ge k 0
  · exact .inl ⟨(-k).toNat, by omega, by omega, by omega⟩
  · exact .inr ⟨k.toNat, by omega, by omega⟩

section
variable {top n : Nat}

theorem regimeRun_neg (h : 1 ≤ n) : regimeRun (-n) = n := by
  rw [regimeRun, if_pos (by omega)]
  omega

theorem regimeRun_nonneg (n : Nat) : regimeRun n = n + 1 := by
  rw [regimeRun, if_neg (by omega)]
  omega

theorem regimeRoom_neg (h : 1 ≤ n) : regimeRoom top (-n) = top - n := by
  rw [regimeRoom, regimeRun_neg h]

theorem regimeRoom_nonneg (top n : Nat) : regimeRoom top n = top - 1 - n := by
  rw [regimeRoom, regimeRun_nonneg]
  omega

theorem regimeStart_neg (h : 1 ≤ n) (hn : n ≤ top) : regimeStart top (-n) = 2 ^ (top - n) := by
  rw [regimeStart, if_pos (by omega)]
  congr 1
  omega

theorem regimeStart_nonneg (top n : Nat) : regimeStart top n = 2 ^ (top + 1) - 2 ^ (top - n) := by
  rw [regimeStart, if_neg (by omega)]
  congr 2
  omega

theorem regimeStart_nonneg_eq_mul (hn : n ≤ top) : regimeStart top n = 2 ^ (top - n) * (2 ^ (n + 1) - 1) := by
  rw [regimeStart_nonneg, Nat.mul_sub, ← pow_add, mul_one]
  congr 2
  omega

end

/-- Every number below `2^(top + 1)` but 0 has a regime value: by the highest 1 of `p` where bit `top` is 0, and by the highest 0
where it is 1. -/
theorem exists_inRegime {top p : Nat} (pos : 0 < p) (bound : p < 2 ^ (top + 1)) : ∃ k x, InRegime top k x p := by
  rw [pow_succ] at bound
  obtain low | high := lt_or_ge p (2 ^ top)
  · have ht : p.log2 < top := (Nat.log2_lt pos.ne').mpr low
    have above := Nat.log2_self_le pos.ne'
    have below : p < 2 ^ (p.log2 + 1) := Nat.lt_log2_self
    have room : top - (top - p.log2) = p.log2 := by omega
    refine ⟨-(top - p.log2 : Nat), p - 2 ^ p.log2, by omega, by omega, ?_, ?_⟩
    · rw [regimeRoom_neg (by omega), room]; rw [pow_succ] at below; omega
    · rw [regimeStart_neg (by omega) (by omega), room]; omega
  · obtain ⟨c, hc⟩ : ∃ c, c + p + 1 = 2 ^ top * 2 := ⟨2 ^ top * 2 - 1 - p, by omega⟩
    obtain rfl | cpos := c.eq_zero_or_pos
    · refine ⟨top, 0, by omega, by omega, Nat.two_pow_pos _, ?_⟩
      rw [regimeStart_nonneg, pow_succ, Nat.sub_self]
      omega
    · have ht : c.log2 < top := (Nat.log2_lt cpos.ne').mpr (by omega)
      have above := Nat.log2_self_le cpos.ne'
      have below : c < 2 ^ (c.log2 + 1) := Nat.lt_log2_self
      have fits : 2 ^ (c.log2 + 1) ≤ 2 ^ top := Nat.pow_le_pow_right (by decide) ht
      have room : top - 1 - (top - 1 - c.log2) = c.log2 := by omega
      have start : top - (top - 1 - c.log2) = c.log2 + 1 := by omega
      refine ⟨(top - 1 - c.log2 : Nat), 2 ^ (c.log2 + 1) - 1 - c, by omega, by omega, ?_, ?_⟩
      · rw [regimeRoom_nonneg, room]; rw [pow_succ] at below ⊢; omega
      · rw [regimeStart_nonneg, start, pow_succ 2 top]; omega

/-- The numbers of a greater regime value are all greater. -/
theorem regimeStart_add_le {top : Nat} {k k' : Int} (lo : -top ≤ k) (hi : k' ≤ top) (h : k < k') :
    regimeStart top k + 2 ^ regimeRoom top k ≤ regimeStart top k' := by
  have mono {i j : Nat} (hij : i ≤ j) : 2 ^ i ≤ 2 ^ j := Nat.pow_le_pow_right (by decide) hij
  obtain ⟨n, hn, hnt, rfl⟩ | ⟨n, hn, rfl⟩ := regime_cases lo (by omega : k ≤ top)
  · rw [regimeStart_neg hn hnt, regimeRoom_neg hn]
    obtain ⟨n', hn', hnt', rfl⟩ | ⟨n', hn', rfl⟩ := regime_cases (by omega : -(top : Int) ≤ k') hi
    · have := mono (show top - n + 1 ≤ top - n' by omega)
      rw [regimeStart_neg hn' hnt']
      omega
    · have := mono (show top - n + 1 ≤ top by omega)
      have := mono (show top - n' ≤ top by omega)
      rw [regimeStart_nonneg]
      omega
  · obtain ⟨n', rfl⟩ := Int.eq_ofNat_of_zero_le (show 0 ≤ k' by omega)
    have room : top - n = top - 1 - n + 1 := by omega
    have := mono (show top - n' ≤ top - 1 - n by omega)
    have := mono (show top - 1 - n + 1 ≤ top + 1 by omega)
    rw [regimeStart_nonneg, regimeStart_nonneg, regimeRoom_nonneg, room]
    omega

theorem regimeStart_pos {top : Nat} {k : Int} (lo : -top ≤ k) (hi : k ≤ top) : 0 < regimeStart top k := by
  obtain ⟨n, hn, hnt, rfl⟩ | ⟨n, hn, rfl⟩ := regime_cases lo hi
  · rw [regimeStart_neg hn hnt]
    exact Nat.two_pow_pos _
  · have := Nat.pow_lt_pow_right (a := 2) (by decide) (show top - n < top + 1 by omega)
    rw [regimeStart_nonneg]
    omega

namespace InRegime
variable {top x p n j : Nat} {k : Int}

theorem pos (h : InRegime top k x p) : 0 < p := by
  have := regimeStart_pos h.lo h.hi
  have := h.eq
  omega

theorem lt_two_pow (h : InRegime top k x p) : p < 2 ^ (top + 1) := by
  obtain ⟨lo, hi, room, rfl⟩ := h
  have last : regimeStart top top < 2 ^ (top + 1) := by
    rw [regimeStart_nonneg, Nat.sub_self]
    have := Nat.two_pow_pos (top + 1)
    omega
  obtain rfl | less := hi.eq_or_lt
  · rw [regimeRoom_nonneg, show top - 1 - top = 0 by omega] at room
    omega
  · have := regimeStart_add_le lo le_rfl less
    omega

/-! ### The bits of a number in a regime -/

/-- The run and the terminator stand above the room, so that what lies in it is `x`. -/
theorem exists_eq_mul_add (h : InRegime top k x p) : ∃ a, p = 2 ^ regimeRoom top k * a + x := by
  obtain ⟨lo, hi, -, rfl⟩ := h
  obtain ⟨n, hn, hnt, rfl⟩ | ⟨n, hn, rfl⟩ := regime_cases lo hi
  · exact ⟨1, by rw [regimeStart_neg hn hnt, regimeRoom_neg hn, mul_one]⟩
  · rw [regimeStart_nonneg_eq_mul hn, regimeRoom_nonneg]
    have dvd : 2 ^ (top - 1 - n) ∣ 2 ^ (top - n) * (2 ^ (n + 1) - 1) := (pow_dvd_pow 2 (by omega)).mul_right _
    obtain ⟨a, ha⟩ := dvd
    exact ⟨a, by rw [ha]⟩

theorem testBit_of_lt_room (h : InRegime top k x p) (hj : j < regimeRoom top k) : p.testBit j = x.testBit j := by
  obtain ⟨a, rfl⟩ := h.exists_eq_mul_add
  rw [Nat.testBit_two_pow_mul_add _ h.room, if_pos hj]

theorem mod_eq (h : InRegime top k x p) (hj : j ≤ regimeRoom top k) : p % 2 ^ j = x % 2 ^ j := by
  obtain ⟨a, rfl⟩ := h.exists_eq_mul_add
  obtain ⟨b, hb⟩ := pow_dvd_pow 2 hj
  rw [hb, mul_assoc, Nat.mul_add_mod]

theorem testBit_zeros (h : InRegime top (-n) x p) (hn : 1 ≤ n) (hj : top < j + n) : p.testBit j = false := by
  obtain ⟨lo, -, room, rfl⟩ := h
  rw [regimeRoom_neg hn] at room
  rw [regimeStart_neg hn (by omega)]
  apply Nat.testBit_lt_two_pow
  calc 2 ^ (top - n) + x < 2 ^ (top - n + 1) := by rw [pow_succ]; omega
    _ ≤ 2 ^ j := Nat.pow_le_pow_right (by decide) (by omega)

theorem testBit_zeros_end (h : InRegime top (-n) x p) (hn : 1 ≤ n) : p.testBit (top - n) = true := by
  obtain ⟨lo, -, room, rfl⟩ := h
  rw [regimeRoom_neg hn] at room
  rw [regimeStart_neg hn (by omega), Nat.testBit_two_pow_add_eq, Nat.testBit_lt_two_pow room]
  rfl

/-- A number of a regime value `n ≥ 0` is the run of `n + 1` ones with `x` below it. -/
theorem eq_ones_add (h : InRegime top n x p) : x < 2 ^ (top - n) ∧ p = 2 ^ (top - n) * (2 ^ (n + 1) - 1) + x := by
  obtain ⟨-, hi, room, rfl⟩ := h
  rw [regimeRoom_nonneg] at room
  exact ⟨room.trans_le (Nat.pow_le_pow_right (by decide) (by omega)), by rw [regimeStart_nonneg_eq_mul (by omega)]⟩

theorem testBit_ones (h : InRegime top n x p) (hj : top ≤ j + n) (hjt : j ≤ top) : p.testBit j = true := by
  obtain ⟨fits, rfl⟩ := h.eq_ones_add
  rw [Nat.testBit_two_pow_mul_add _ fits, if_neg (by omega), Nat.testBit_two_pow_sub_one, decide_eq_true_iff]
  omega

theorem testBit_ones_end (h : InRegime top n x p) (hn : n < top) : p.testBit (top - 1 - n) = false := by
  have room := h.room
  obtain ⟨fits, rfl⟩ := h.eq_ones_add
  rw [regimeRoom_nonneg] at room
  rw [Nat.testBit_two_pow_mul_add _ fits, if_pos (by omega), Nat.testBit_lt_two_pow room]

/-! ### Field decoding in a regime (R59) -/

theorem testBit_top (h : InRegime top k x p) : p.testBit top = decide (0 ≤ k) := by
  obtain ⟨n, hn, hnt, rfl⟩ | ⟨n, hn, rfl⟩ := regime_cases h.lo h.hi
  · rw [h.testBit_zeros hn (by omega), decide_eq_false (by omega)]
  · rw [h.testBit_ones (by omega) le_rfl, decide_eq_true (by omega)]

theorem runLength_eq (h : InRegime top k x p) : runLength p (p.testBit top) top = regimeRun k := by
  rw [h.testBit_top]
  obtain ⟨n, hn, hnt, rfl⟩ | ⟨n, hn, rfl⟩ := regime_cases h.lo h.hi
  · rw [decide_eq_false (by omega), regimeRun_neg hn]
    refine Machine.runLength_eq (by omega) (fun j _ hj => h.testBit_zeros hn hj) fun _ => ?_
    rw [h.testBit_zeros_end hn]
    decide
  · rw [decide_eq_true (by omega), regimeRun_nonneg]
    refine Machine.runLength_eq (by omega) (fun j hjt hj => h.testBit_ones (by omega) hjt) fun hnt => ?_
    rw [Nat.add_comm, Nat.sub_add_eq, h.testBit_ones_end hnt]
    decide

/-- The four fields, the last three of them as bits of the pattern. -/
theorem fieldsFrom_eq (h : InRegime top k x p) :
    fieldsFrom top p =
      { k := k
        e := if 0 < regimeRoom top k then (p.testBit (regimeRoom top k - 1)).toNat else 0
        f := p % 2 ^ (regimeRoom top k - 1)
        fw := regimeRoom top k - 1 } := by
  have width : top - 1 - regimeRun k = regimeRoom top k - 1 := by unfold regimeRoom; omega
  have below : regimeRun k < top ↔ 0 < regimeRoom top k := by unfold regimeRoom; omega
  have regime : (if decide (0 ≤ k) then (regimeRun k : Int) - 1 else -(regimeRun k : Int)) = k := by
    rw [regimeRun]
    split <;> rename_i sign <;> rw [decide_eq_true_iff] at sign
    · rw [if_neg (by omega)]; omega
    · rw [if_pos (by omega)]; omega
  simp only [fieldsFrom, h.runLength_eq, width, below]
  simp only [h.testBit_top, regime]

/-- The exponent bit and the fraction are the quotient and the remainder of `x`. -/
theorem fieldsFrom_eq_divMod (h : InRegime top k x p) :
    fieldsFrom top p =
      { k := k
        e := x / 2 ^ (regimeRoom top k - 1)
        f := x % 2 ^ (regimeRoom top k - 1)
        fw := regimeRoom top k - 1 } := by
  have room := h.room
  rw [h.fieldsFrom_eq, h.mod_eq (Nat.sub_le _ _)]
  congr 1
  split
  case isTrue some_room =>
    rw [h.testBit_of_lt_room (by omega), Nat.toNat_testBit]
    apply Nat.mod_eq_of_lt
    rwa [Nat.div_lt_iff_lt_mul (Nat.two_pow_pos _), ← pow_succ', Nat.sub_add_cancel some_room]
  case isFalse no_room =>
    obtain rfl : x = 0 := by simpa [Nat.eq_zero_of_not_pos no_room] using room
    simp

end InRegime

end Sys2Proof.Machine
end

section
/-! SUPPORT. The order of the real numbers that fields stand for (R63), and from it the order of the positive patterns (R65). -/

namespace Sys2Proof.Machine

/-! ### Scale and fraction -/

theorem le_scaled (s : Int) (f w : Nat) : (2 : Rat) ^ s ≤ scaled s f w := by
  have fraction : (0 : Rat) ≤ f / 2 ^ w := by positivity
  exact le_mul_of_one_le_right (by positivity) (by linarith)

/-- A greater regime value outweighs the exponent bit. -/
theorem two_mul_add_lt {k k' : Int} {e : Nat} (e' : Nat) (h : k < k') (he : e ≤ 1) : 2 * k + e < 2 * k' + e' := by omega

theorem scaled_pos (s : Int) (f w : Nat) : 0 < scaled s f w := (zpow_pos (by decide) s).trans_le (le_scaled s f w)

theorem scaled_lt {f w : Nat} (s : Int) (h : f < 2 ^ w) : scaled s f w < (2 : Rat) ^ (s + 1) := by
  have fraction : (f : Rat) / 2 ^ w < 1 := (div_lt_one (by positivity)).mpr (by exact_mod_cast h)
  rw [zpow_add_one₀ (by decide)]
  exact mul_lt_mul_of_pos_left (by linarith) (by positivity)

theorem scaled_lt_of_scale {s s' : Int} {f w : Nat} (f' w' : Nat) (hf : f < 2 ^ w) (h : s < s') :
    scaled s f w < scaled s' f' w' :=
  calc scaled s f w < 2 ^ (s + 1) := scaled_lt s hf
    _ ≤ 2 ^ s' := zpow_le_zpow_right₀ (by decide) h
    _ ≤ scaled s' f' w' := le_scaled s' f' w'

theorem scaled_lt_of_fraction {f f' : Nat} (s : Int) (w : Nat) (h : f < f') : scaled s f w < scaled s f' w := by
  have cast : (f : Rat) < f' := by exact_mod_cast h
  unfold scaled
  gcongr

/-- A number that gives its quotient to the scale and its remainder to the fraction is read in its own order. -/
theorem scaled_divMod_lt {x x' : Nat} (s : Int) (w : Nat) (h : x < x') :
    scaled (s + (x / 2 ^ w : Nat)) (x % 2 ^ w) w < scaled (s + (x' / 2 ^ w : Nat)) (x' % 2 ^ w) w := by
  obtain same | less := (Nat.div_le_div_right (c := 2 ^ w) h.le).eq_or_lt
  · have fraction : x % 2 ^ w < x' % 2 ^ w := by
      have := Nat.div_add_mod x (2 ^ w)
      have := Nat.div_add_mod x' (2 ^ w)
      rw [same] at *
      omega
    rw [same]
    exact scaled_lt_of_fraction _ _ fraction
  · exact scaled_lt_of_scale _ _ (Nat.mod_lt _ (Nat.two_pow_pos _)) (by omega)

/-! ### Patterns -/

namespace InRegime
variable {top x x' p q : Nat} {k k' : Int}

theorem value_eq (h : InRegime top k x p) :
    (fieldsFrom top p).value = scaled (2 * k + (x / 2 ^ (regimeRoom top k - 1) : Nat)) (x % 2 ^ (regimeRoom top k - 1))
      (regimeRoom top k - 1) := by
  rw [Fields.value, Fields.scale, h.fieldsFrom_eq_divMod]

theorem quotient_le_one (h : InRegime top k x p) : x / 2 ^ (regimeRoom top k - 1) ≤ 1 := by
  have fits : 2 ^ regimeRoom top k ≤ 2 ^ (regimeRoom top k - 1 + 1) := Nat.pow_le_pow_right (by decide) (by omega)
  rw [Nat.pow_succ'] at fits
  exact Nat.le_of_lt_succ ((Nat.div_lt_iff_lt_mul (Nat.two_pow_pos _)).mpr (h.room.trans_le fits))

theorem regime_le (hp : InRegime top k x p) (hq : InRegime top k' x' q) (h : p ≤ q) : k ≤ k' := by
  by_contra! less
  have above := regimeStart_add_le hq.lo hp.hi less
  have room := hq.room
  rw [hp.eq, hq.eq] at h
  omega

end InRegime

/-- R65 for positive patterns: a greater regime value means a greater scale, since the exponent bit adds 1 at most, and within a
regime the bits below the terminator are read in their own order. -/
theorem fieldsFrom_value_lt {top p q : Nat} (pos : 0 < p) (h : p < q) (bound : q < 2 ^ (top + 1)) :
    (fieldsFrom top p).value < (fieldsFrom top q).value := by
  obtain ⟨k, x, hp⟩ := exists_inRegime pos (h.trans bound)
  obtain ⟨k', x', hq⟩ := exists_inRegime (pos.trans h) bound
  rw [hp.value_eq, hq.value_eq]
  obtain rfl | less := (hp.regime_le hq h.le).eq_or_lt
  · rw [hp.eq, hq.eq] at h
    exact scaled_divMod_lt _ _ (Nat.lt_of_add_lt_add_left h)
  · exact scaled_lt_of_scale _ _ (Nat.mod_lt _ (Nat.two_pow_pos _)) (two_mul_add_lt _ less hp.quotient_le_one)

end Sys2Proof.Machine
end

section
/-! SUPPORT. The classes of patterns (R58), the value of a pattern by its class (R63), and the value as an odd, strictly increasing
function of the pattern read as a signed integer (R65). -/

namespace Sys2Proof.Machine

/-! ### The regime of a positive pattern -/

theorem exists_inRegime_fields {p : Pattern} (lo : 1 ≤ p.toNat) (hi : p.toNat ≤ 0x7FFF) :
    ∃ x, InRegime 14 (fields p).k x p.toNat := by
  obtain ⟨k, x, h⟩ := exists_inRegime (top := 14) lo (by omega)
  refine ⟨x, ?_⟩
  rwa [fields, h.fieldsFrom_eq]

/-- Every place of every regime is that of a positive pattern. -/
theorem exists_pattern_inRegime {k : Int} {x : Nat} (lo : -14 ≤ k) (hi : k ≤ 14) (room : x < 2 ^ regimeRoom 14 k) :
    ∃ p : Pattern, 1 ≤ p.toNat ∧ p.toNat ≤ 0x7FFF ∧ InRegime 14 k x p.toNat := by
  have h : InRegime 14 k x (regimeStart 14 k + x) := ⟨lo, hi, room, rfl⟩
  have pos := h.pos
  have bound := h.lt_two_pow
  have same : (BitVec.ofNat 16 (regimeStart 14 k + x)).toNat = regimeStart 14 k + x := by
    rw [BitVec.toNat_ofNat, Nat.mod_eq_of_lt (by omega)]
  exact ⟨BitVec.ofNat 16 (regimeStart 14 k + x), by omega, by omega, by rwa [same]⟩

namespace InRegime
variable {p : Pattern} {k : Int} {x w : Nat}

/-- The exponent bit and the fraction, where there is room for them. -/
theorem fields_of_room (h : InRegime 14 k x p.toNat) (room : regimeRoom 14 k = w + 1) :
    (fields p).e = (p.getLsbD w).toNat ∧ (fields p).fw = w ∧ (fields p).f = p.toNat % 2 ^ w := by
  rw [fields, h.fieldsFrom_eq, room]
  exact ⟨rfl, rfl, rfl⟩

theorem fields_of_no_room (h : InRegime 14 k x p.toNat) (no_room : regimeRoom 14 k = 0) :
    (fields p).e = 0 ∧ (fields p).f = 0 ∧ (fields p).fw = 0 := by
  rw [fields, h.fieldsFrom_eq, no_room]
  exact ⟨rfl, Nat.mod_one _, rfl⟩

/-- A regime value without room has one pattern. -/
theorem pattern_eq_of_no_room (h : InRegime 14 k x p.toNat) (no_room : regimeRoom 14 k = 0) :
    p = BitVec.ofNat 16 (regimeStart 14 k) := by
  have only : x = 0 := by simpa [no_room] using h.room
  calc p = BitVec.ofNat 16 p.toNat := by simp
    _ = BitVec.ofNat 16 (regimeStart 14 k) := by rw [h.eq, only, Nat.add_zero]

theorem regime_of_long_run (h : InRegime 14 k x p.toNat) (long : 14 ≤ regimeRun k) : k = 14 ∨ k = 13 ∨ k = -14 := by
  have := h.lo
  have := h.hi
  rw [regimeRun] at long
  split at long <;> omega

end InRegime

/-! ### Classes and negation -/

theorem classify_cases (p : Pattern) :
    (p.toNat = 0 ∧ classify p = .zero) ∨ (p.toNat = 0x8000 ∧ classify p = .nar) ∨
    ((1 ≤ p.toNat ∧ p.toNat ≤ 0x7FFF) ∧ classify p = .positive) ∨ (0x8001 ≤ p.toNat ∧ classify p = .negative) := by
  have zero : p = ZERO ↔ p.toNat = 0 := BitVec.toNat_inj.symm
  have nar : p = NAR ↔ p.toNat = 0x8000 := BitVec.toNat_inj.symm
  simp only [classify, zero, nar]
  split_ifs
  · exact .inl ⟨by assumption, rfl⟩
  · exact .inr (.inl ⟨by assumption, rfl⟩)
  · exact .inr (.inr (.inl ⟨by omega, rfl⟩))
  · exact .inr (.inr (.inr ⟨by omega, rfl⟩))

theorem classify_eq_zero_iff (p : Pattern) : classify p = .zero ↔ p.toNat = 0 := by
  obtain ⟨range, eq⟩ | ⟨range, eq⟩ | ⟨range, eq⟩ | ⟨range, eq⟩ := classify_cases p <;> simp [eq] <;> omega

theorem classify_eq_nar_iff (p : Pattern) : classify p = .nar ↔ p.toNat = 0x8000 := by
  obtain ⟨range, eq⟩ | ⟨range, eq⟩ | ⟨range, eq⟩ | ⟨range, eq⟩ := classify_cases p <;> simp [eq] <;> omega

theorem classify_eq_positive_iff (p : Pattern) : classify p = .positive ↔ 1 ≤ p.toNat ∧ p.toNat ≤ 0x7FFF := by
  obtain ⟨range, eq⟩ | ⟨range, eq⟩ | ⟨range, eq⟩ | ⟨range, eq⟩ := classify_cases p <;> simp [eq] <;> omega

theorem classify_eq_negative_iff (p : Pattern) : classify p = .negative ↔ 0x8001 ≤ p.toNat := by
  obtain ⟨range, eq⟩ | ⟨range, eq⟩ | ⟨range, eq⟩ | ⟨range, eq⟩ := classify_cases p <;> simp [eq] <;> omega

@[simp] theorem neg16_neg16 (p : Pattern) : neg16 (neg16 p) = p := by rw [neg16_eq_neg, neg16_eq_neg, BitVec.neg_neg]

theorem neg16_toNat (p : Pattern) : (neg16 p).toNat = (0x10000 - p.toNat) % 0x10000 := by
  rw [neg16_eq_neg, BitVec.toNat_neg]

theorem classify_neg16_of_negative {p : Pattern} (h : classify p = .negative) : classify (neg16 p) = .positive := by
  rw [classify_eq_negative_iff] at h
  rw [classify_eq_positive_iff, neg16_toNat]
  omega

theorem classify_neg16_of_positive {p : Pattern} (h : classify p = .positive) : classify (neg16 p) = .negative := by
  rw [classify_eq_positive_iff] at h
  rw [classify_eq_negative_iff, neg16_toNat]
  omega

/-! ### The value by class -/

theorem value_of_positive {p : Pattern} (h : classify p = .positive) : value p = some (fields p).value := by
  simp only [value, h]

theorem value_of_negative {p : Pattern} (h : classify p = .negative) : value p = some (-(fields (neg16 p)).value) := by
  simp only [value, h]

/-- The value of a positive pattern whose fields are known. -/
theorem value_of_fields {p : Pattern} {x : Fields} (h : classify p = .positive) (hx : fields p = x) : value p = some x.value := by
  rw [value_of_positive h, hx]

/-- R65: `neg16` negates the value; NaR has none and is its own negation. -/
theorem value_neg16 (p : Pattern) : value (neg16 p) = (value p).map (-·) := by
  obtain ⟨range, -⟩ | ⟨range, -⟩ | ⟨-, positive⟩ | ⟨-, negative⟩ := classify_cases p
  · obtain rfl : p = 0x0000#16 := BitVec.eq_of_toNat_eq range
    rfl
  · obtain rfl : p = 0x8000#16 := BitVec.eq_of_toNat_eq range
    rfl
  · rw [value_of_positive positive, value_of_negative (classify_neg16_of_positive positive), neg16_neg16]
    rfl
  · rw [value_of_negative negative, value_of_positive (classify_neg16_of_negative negative)]
    simp

theorem value_neg16_of_value {p : Pattern} {x : Rat} (h : value p = some x) : value (neg16 p) = some (-x) := by
  rw [value_neg16, h, Option.map_some]

/-! ### The value as a function of the signed integer -/

/-- The value of the pattern that reads as the signed integer `v`: that of the magnitude, with the sign of `v`. -/
def signedValue (v : Int) : Rat := v.sign * (fieldsFrom 14 v.natAbs).value

theorem signedValue_zero : signedValue 0 = 0 := by simp [signedValue]

theorem signedValue_neg (v : Int) : signedValue (-v) = -signedValue v := by simp [signedValue]

theorem signedValue_of_pos {v : Int} (h : 0 < v) : signedValue v = (fieldsFrom 14 v.natAbs).value := by
  simp [signedValue, Int.sign_eq_one_of_pos h]

theorem value_eq_signedValue_of_positive {p : Pattern} (h : classify p = .positive) : value p = some (signedValue p.toInt) := by
  obtain ⟨lo, hi⟩ := (classify_eq_positive_iff p).mp h
  have signed : p.toInt = p.toNat := BitVec.toInt_eq_toNat_of_lt (by omega)
  rw [value_of_positive h, signed, signedValue_of_pos (by omega), Int.natAbs_natCast, fields]

theorem toInt_neg16 {p : Pattern} (h : p ≠ NAR) : (neg16 p).toInt = -p.toInt := by
  rw [neg16_eq_neg]
  exact BitVec.toInt_neg_of_ne_intMin h

theorem value_eq_signedValue {p : Pattern} (h : p ≠ NAR) : value p = some (signedValue p.toInt) := by
  obtain ⟨range, -⟩ | ⟨range, -⟩ | ⟨-, positive⟩ | ⟨-, negative⟩ := classify_cases p
  · obtain rfl : p = ZERO := BitVec.eq_of_toNat_eq range
    exact congrArg some signedValue_zero.symm
  · exact absurd (BitVec.eq_of_toNat_eq range) h
  · exact value_eq_signedValue_of_positive positive
  · have magnitude := value_eq_signedValue_of_positive (classify_neg16_of_negative negative)
    rw [toInt_neg16 h, signedValue_neg] at magnitude
    simpa using value_neg16_of_value magnitude

theorem toInt_bounds {p : Pattern} (h : p ≠ NAR) : -0x8000 < p.toInt ∧ p.toInt < 0x8000 := by
  have lo := BitVec.le_toInt p
  have hi := BitVec.toInt_lt (x := p)
  have least : p.toInt ≠ -0x8000 := fun eq => h (BitVec.eq_of_toInt_eq (eq.trans (by decide)))
  omega

theorem signedValue_pos {v : Int} (h : 0 < v) : 0 < signedValue v := by
  rw [signedValue_of_pos h]
  exact scaled_pos _ _ _

theorem signedValue_lt_of_nonneg {v w : Int} (nonneg : 0 ≤ v) (h : v < w) (bound : w < 0x8000) :
    signedValue v < signedValue w := by
  obtain rfl | pos := nonneg.eq_or_lt
  · rw [signedValue_zero]
    exact signedValue_pos h
  · rw [signedValue_of_pos pos, signedValue_of_pos (pos.trans h)]
    exact fieldsFrom_value_lt (by omega) (by omega) (by omega)

theorem signedValue_lt {v w : Int} (lo : -0x8000 < v) (h : v < w) (hi : w < 0x8000) : signedValue v < signedValue w := by
  obtain nonneg | neg := le_or_gt 0 v
  · exact signedValue_lt_of_nonneg nonneg h hi
  obtain pos | nonpos := lt_or_ge 0 w
  · have below := signedValue_pos (v := -v) (by omega)
    rw [signedValue_neg] at below
    linarith [signedValue_pos pos]
  · have mirrored := signedValue_lt_of_nonneg (v := -w) (w := -v) (by omega) (by omega) (by omega)
    rw [signedValue_neg, signedValue_neg] at mirrored
    linarith

theorem signedValue_le {v w : Int} (lo : -0x8000 < v) (h : v ≤ w) (hi : w < 0x8000) : signedValue v ≤ signedValue w := by
  obtain rfl | less := h.eq_or_lt
  · exact le_rfl
  · exact (signedValue_lt lo less hi).le

/-! ### The canonical constants (R64) -/

theorem value_ONE : value ONE = some 1 := by
  rw [value_of_fields (x := { k := 0, e := 0, f := 0, fw := 12 }) (by decide) (by decide)]
  norm_num [Fields.value, Fields.scale, scaled]

theorem value_MAX : value MAX = some (2 ^ 28) := by
  rw [value_of_fields (x := { k := 14, e := 0, f := 0, fw := 0 }) (by decide) (by decide)]
  norm_num [Fields.value, Fields.scale, scaled]

theorem value_SECOND_LARGEST : value SECOND_LARGEST = some (2 ^ 26) := by
  rw [value_of_fields (x := { k := 13, e := 0, f := 0, fw := 0 }) (by decide) (by decide)]
  norm_num [Fields.value, Fields.scale, scaled]

theorem value_MIN_POSITIVE : value MIN_POSITIVE = some (1 / 2 ^ 28) := by
  rw [value_of_fields (x := { k := -14, e := 0, f := 0, fw := 0 }) (by decide) (by decide)]
  norm_num [Fields.value, Fields.scale, scaled]

theorem value_MIN : value MIN = some (-2 ^ 28) := value_neg16_of_value value_MAX

theorem signedValue_MAX : signedValue 0x7FFF = 2 ^ 28 :=
  Option.some.inj ((value_eq_signedValue (p := MAX) (by decide)).symm.trans value_MAX)

theorem signedValue_MIN_POSITIVE : signedValue 1 = 1 / 2 ^ 28 :=
  Option.some.inj ((value_eq_signedValue (p := MIN_POSITIVE) (by decide)).symm.trans value_MIN_POSITIVE)

end Sys2Proof.Machine
end

section
/-! SUPPORT. The statements of the posit16 format family O27 to O34. -/

namespace Sys2Proof.Machine

/-- Settles O34: value is `signedValue` of the signed integer, which is odd and strictly increasing, so that its values at -0x7FFF,
1 and 0x7FFF are the bounds. -/
theorem valueOrderIsSignedOrder : Obligations.ValueOrderIsSignedOrder := by
  refine ⟨fun p q hp hq h => ?_, fun p x hx => ?_, value_MAX, value_MIN, value_MIN_POSITIVE⟩
  · exact ⟨_, _, value_eq_signedValue hp, value_eq_signedValue hq, signedValue_lt (toInt_bounds hp).1 h (toInt_bounds hq).2⟩
  · have hp : p ≠ NAR := by
      rintro rfl
      cases hx
    obtain ⟨lo, hi⟩ := toInt_bounds hp
    obtain rfl := Option.some.inj ((value_eq_signedValue hp).symm.trans hx)
    refine ⟨?_, ?_, fun pos => ?_, value_neg16_of_value hx⟩
    · rw [← signedValue_MAX, ← signedValue_neg]
      exact signedValue_le (by decide) (by omega) hi
    · rw [← signedValue_MAX]
      exact signedValue_le lo (by omega) (by decide)
    · have nonzero : 0 < p.toInt := by
        by_contra! nonpos
        have := signedValue_le lo nonpos (by decide)
        rw [signedValue_zero] at this
        linarith
      rw [← signedValue_MIN_POSITIVE]
      exact signedValue_le (by decide) nonzero hi

/-- Settles O32: by class, with the printed values computed from the fields of their patterns. -/
theorem valueOfPattern : Obligations.ValueOfPattern := by
  refine ⟨rfl, rfl, fun p lo hi => value_of_positive ((classify_eq_positive_iff p).mpr ⟨lo, hi⟩), fun p h => ?_, value_ONE,
    ?_, ?_, ?_, ?_⟩
  · have negative := (classify_eq_negative_iff p).mpr h
    exact ⟨_, value_of_positive (classify_neg16_of_negative negative), value_of_negative negative⟩
  · rw [value_of_fields (x := { k := 2, e := 1, f := 0, fw := 10 }) (by decide) (by decide)]
    norm_num [Fields.value, Fields.scale, scaled]
  · rw [value_of_fields (x := { k := 1, e := 1, f := 0x700, fw := 11 }) (by decide) (by decide)]
    norm_num [Fields.value, Fields.scale, scaled]
  · rw [value_of_fields (x := { k := 0, e := 1, f := 0x800, fw := 12 }) (by decide) (by decide)]
    norm_num [Fields.value, Fields.scale, scaled]
  · rw [value_of_fields (x := { k := 3, e := 1, f := 0, fw := 9 }) (by decide) (by decide)]
    norm_num [Fields.value, Fields.scale, scaled]

/-- Settles O30: the bits of a number in the regime of its own regime value, with the exponent bit at the top of the room. -/
theorem fieldLayoutByRegime : Obligations.FieldLayoutByRegime := by
  intro p lo hi x
  obtain ⟨y, h⟩ := exists_inRegime_fields lo hi
  refine ⟨⟨h.lo, h.hi⟩, fun k hk eq => ?_, fun eq => ?_, fun eq => ?_, fun n hn hn' eq => ?_, fun eq => ?_⟩ <;> rw [eq] at h
  · have room : regimeRoom 14 k = 12 - k + 1 := by rw [regimeRoom_nonneg]; omega
    exact ⟨fun i above below => h.testBit_ones (by omega) below, h.testBit_ones_end (by omega), h.fields_of_room room⟩
  · exact ⟨h.pattern_eq_of_no_room rfl, h.fields_of_no_room rfl⟩
  · exact ⟨h.pattern_eq_of_no_room rfl, h.fields_of_no_room rfl⟩
  · have room : regimeRoom 14 (-n) = 13 - n + 1 := by rw [regimeRoom_neg hn]; omega
    exact ⟨fun i above _ => h.testBit_zeros hn (by omega), h.testBit_zeros_end hn, h.fields_of_room room⟩
  · exact ⟨h.pattern_eq_of_no_room rfl, h.fields_of_no_room rfl⟩

/-- Settles O29: a run of 14 or more bits leaves no room below the terminator, which three regime values do, each with one
pattern. -/
theorem exponentBitAbsentForThree : Obligations.ExponentBitAbsentForThree := by
  intro p lo hi
  obtain ⟨x, h⟩ := exists_inRegime_fields lo hi
  have absent : runLength p.toNat (p.getLsbD 14) 14 ≥ 14 ↔ p = 0x7FFF#16 ∨ p = 0x7FFE#16 ∨ p = 0x0001#16 := by
    constructor
    · intro long
      rw [show runLength p.toNat (p.getLsbD 14) 14 = _ from h.runLength_eq] at long
      obtain eq | eq | eq := h.regime_of_long_run long <;> rw [eq] at h
      · exact .inl (h.pattern_eq_of_no_room rfl)
      · exact .inr (.inl (h.pattern_eq_of_no_room rfl))
      · exact .inr (.inr (h.pattern_eq_of_no_room rfl))
    · rintro (rfl | rfl | rfl) <;> decide
  refine ⟨absent, ?_, ?_, ?_, ?_⟩
  · rw [absent]
    simp only [expPresent, Bool.not_eq_false', Bool.or_eq_true, beq_iff_eq, or_assoc]
  all_goals
    rintro rfl
    decide

/-- Settles O31: the regime values without room have exponent bit 0; every other one takes both exponent bits. -/
theorem scalesTaken : Obligations.ScalesTaken := by
  refine fun s => ⟨?_, fun ⟨lo, hi, notLow, notHigh⟩ => ?_⟩
  · rintro ⟨p, lo, hi, rfl⟩
    obtain ⟨x, h⟩ := exists_inRegime_fields lo hi
    have := h.lo
    have := h.hi
    have exponent : (fields p).e ≤ 1 := Nat.le_of_lt_succ (fields_e_lt p)
    have absent (no_room : regimeRoom 14 (fields p).k = 0) : (fields p).e = 0 := (h.fields_of_no_room no_room).1
    rw [regimeRoom, regimeRun] at absent
    split at absent <;> omega
  · obtain ⟨e, he⟩ : ∃ e : Nat, s = 2 * (s / 2) + e := ⟨(s % 2).toNat, by omega⟩
    have room : e * 2 ^ (regimeRoom 14 (s / 2) - 1) < 2 ^ regimeRoom 14 (s / 2) := by
      obtain rfl | ⟨rfl, some_room⟩ : e = 0 ∨ e = 1 ∧ 0 < regimeRoom 14 (s / 2) := by
        rw [regimeRoom, regimeRun]
        split <;> omega
      · rw [Nat.zero_mul]
        exact Nat.two_pow_pos _
      · rw [Nat.one_mul]
        exact Nat.pow_lt_pow_right (by decide) (by omega)
    obtain ⟨p, pos, bound, h⟩ := exists_pattern_inRegime (by omega) (by omega) room
    refine ⟨p, pos, bound, ?_⟩
    rw [fields, h.fieldsFrom_eq_divMod, Nat.mul_div_cancel _ (Nat.two_pow_pos _), ← he]

/-- Settles O27: `~p + 1` is two's-complement negation. -/
theorem negationIsTwosComplement : Obligations.NegationIsTwosComplement :=
  ⟨fun p => ⟨neg16_eq_neg p, neg16_neg16 p⟩, rfl, rfl⟩

/-- Settles O28: each class is a range of the unsigned pattern, and negation maps the negative range onto the positive one. -/
theorem classesOfPatterns : Obligations.ClassesOfPatterns := fun p =>
  ⟨classify_eq_zero_iff p, classify_eq_nar_iff p, classify_eq_positive_iff p, classify_eq_negative_iff p,
    fun positive => Nat.testBit_lt_two_pow (by have := (classify_eq_positive_iff p).mp positive; omega),
    classify_neg16_of_negative⟩

/-- Settles O33: the values are those of the fields, the negative ones by negation. -/
theorem canonicalConstants : Obligations.CanonicalConstants := by
  refine ⟨rfl, rfl, rfl, value_ONE, rfl, value_neg16_of_value value_ONE, rfl, value_MAX, rfl, rfl, value_MIN, rfl,
    value_MIN_POSITIVE, rfl, value_neg16_of_value value_MIN_POSITIVE, rfl, rfl, fun p => ?_, rfl, value_SECOND_LARGEST⟩
  rw [show 0x8000#16 = BitVec.twoPow 16 15 by decide, BitVec.and_twoPow, signBit]
  cases p.getLsbD 15 <;> decide

end Sys2Proof.Machine
end

section
/-! SUPPORT. The rounding rule (R70): what cutting off the low `d` bits and adding `rne_inc` does to a number, and that this is rounding
to the nearest integer, ties to even. -/

namespace Sys2Proof.Machine

/-- The low `d` bits of `v` cut off, with `rne_inc` of its last, guard and sticky bits added (R70). -/
def roundOff (v d : Nat) : Nat := roundUp (v >>> d) (guardBit v d) (stickyBit v d)

/-! ### The last, guard and sticky bits of a number taken apart -/

section
variable {n t : Nat} (a : Nat) (g : Bool)

theorem shiftRight_mul_add (h : t < 2 ^ n) : (2 ^ n * (2 * a + g.toNat) + t) >>> (n + 1) = a := by
  have one_bit := Bool.toNat_le g
  rw [Nat.shiftRight_succ, Nat.shiftRight_eq_div_pow, Nat.mul_add_div (Nat.two_pow_pos n), Nat.div_eq_of_lt h]
  omega

theorem guardBit_mul_add (h : t < 2 ^ n) : guardBit (2 ^ n * (2 * a + g.toNat) + t) (n + 1) = g := by
  have last : (2 * a + g.toNat).testBit 0 = g := by cases g <;> simp [Nat.testBit_zero]
  rw [guardBit, Nat.add_sub_cancel, Nat.testBit_two_pow_mul_add _ h, if_neg (lt_irrefl n), Nat.sub_self, last]
  simp

theorem stickyBit_mul_add (h : t < 2 ^ n) : stickyBit (2 ^ n * (2 * a + g.toNat) + t) (n + 1) = decide (t ≠ 0) := by
  rw [stickyBit, Nat.add_sub_cancel, Nat.mul_add_mod, Nat.mod_eq_of_lt h]
  cases n with
  | zero =>
    obtain rfl : t = 0 := by simpa using h
    rfl
  | succ n => rw [Bool.eq_iff_iff]; simp

theorem roundOff_mul_add (h : t < 2 ^ n) : roundOff (2 ^ n * (2 * a + g.toNat) + t) (n + 1) = roundUp a g (decide (t ≠ 0)) := by
  rw [roundOff, shiftRight_mul_add a g h, guardBit_mul_add a g h, stickyBit_mul_add a g h]

end

/-- Every number is the retained bits, the guard bit and the bits below it. -/
theorem exists_retained_guard_rest (v n : Nat) : ∃ (a : Nat) (g : Bool) (t : Nat), t < 2 ^ n ∧ v = 2 ^ n * (2 * a + g.toNat) + t := by
  refine ⟨v / 2 ^ n / 2, (v / 2 ^ n).testBit 0, v % 2 ^ n, Nat.mod_lt _ (Nat.two_pow_pos n), ?_⟩
  have halves : 2 * (v / 2 ^ n / 2) + ((v / 2 ^ n).testBit 0).toNat = v / 2 ^ n := by
    rw [Nat.toNat_testBit, pow_zero, Nat.div_one, Nat.div_add_mod]
  rw [halves, Nat.div_add_mod]

/-! ### The three cases of the increment (R71) -/

@[simp] theorem roundUp_of_no_guard (body : Nat) (S : Bool) : roundUp body false S = body := by simp [roundUp, rneInc]

theorem roundUp_tie_even {body : Nat} (h : body % 2 = 0) : roundUp body true false = body := by
  simp [roundUp, rneInc, Nat.testBit_zero, h]

theorem roundUp_increment {body : Nat} {S : Bool} (h : body % 2 = 1 ∨ S = true) : roundUp body true S = body + 1 := by
  simp [roundUp, rneInc, Nat.testBit_zero, h]

/-! ### Cutting nothing off -/

@[simp] theorem roundOff_zero (v : Nat) : roundOff v 0 = v := by simp [roundOff, guardBit, stickyBit]

theorem roundOff_two_mul (v : Nat) : roundOff (2 * v) 1 = v := by
  simpa using roundOff_mul_add (n := 0) v false Nat.one_pos

/-! ### Rounding to nearest, ties to even -/

/-- The two conditions of `RoundsToEvenInt` for `v / 2^(n + 1)`, without a division: `r` is at most `2^n` off, and even at just that. -/
theorem roundsToEvenInt_div_iff {v n r : Nat} :
    RoundsToEvenInt ((v : Rat) / 2 ^ (n + 1)) r ↔
      (2 ^ n * (2 * r) ≤ v + 2 ^ n ∧ v ≤ 2 ^ n * (2 * r) + 2 ^ n) ∧
      (2 ^ n * (2 * r) = v + 2 ^ n ∨ v = 2 ^ n * (2 * r) + 2 ^ n → r % 2 = 0) := by
  generalize multiple : 2 ^ n * (2 * r) = w
  generalize unit : 2 ^ n = h
  have positive : (0 : Rat) < 2 * h := by rw [← unit]; positivity
  have error : (v : Rat) / 2 ^ (n + 1) - (r : Int) = ((v - w : Int) : Rat) / (2 * h) := by
    rw [pow_succ', ← multiple, ← unit]
    push_cast
    field_simp
  have half : (1 / 2 : Rat) = ((h : Int) : Rat) / (2 * h) := by
    rw [← unit]
    push_cast
    field_simp
  rw [RoundsToEvenInt, error, half, abs_div, abs_of_pos positive, div_le_div_iff_of_pos_right positive, div_left_inj' positive.ne',
    ← Int.cast_abs, Int.cast_le, Int.cast_inj, abs_le, abs_eq (Int.natCast_nonneg h)]
  omega

/-- R70: below a half the number is kept, above it is incremented, and at the half it goes to the even neighbour. -/
theorem roundsToEvenInt_roundUp {n t : Nat} (a : Nat) (g : Bool) (h : t < 2 ^ n) :
    RoundsToEvenInt (((2 ^ n * (2 * a + g.toNat) + t : Nat) : Rat) / 2 ^ (n + 1)) (roundUp a g (decide (t ≠ 0))) := by
  rw [roundsToEvenInt_div_iff]
  cases g with
  | false =>
    rw [roundUp_of_no_guard, Bool.toNat_false, Nat.add_zero]
    omega
  | true =>
    rw [Bool.toNat_true, mul_add (2 ^ n), mul_one]
    by_cases kept : a % 2 = 0 ∧ t = 0
    case pos =>
      obtain ⟨even, rfl⟩ := kept
      rw [decide_eq_false (not_not.mpr rfl), roundUp_tie_even even]
      omega
    case neg =>
      rw [roundUp_increment (by rw [decide_eq_true_iff]; omega), mul_add 2 a, mul_add (2 ^ n)]
      omega

/-- R70 for any number of bits cut off. -/
theorem roundsToEvenInt_roundOff (v d : Nat) : RoundsToEvenInt ((v : Rat) / 2 ^ d) (roundOff v d) := by
  cases d with
  | zero => simp [RoundsToEvenInt]
  | succ n =>
    obtain ⟨a, g, t, h, rfl⟩ := exists_retained_guard_rest v n
    rw [roundOff_mul_add a g h]
    exact roundsToEvenInt_roundUp a g h

end Sys2Proof.Machine
end

section
/-! SUPPORT. The packing routine (R72) as rounding of one number, the bit string read as a whole, and that number as a posit of as many
bits as the string is long: its regime, and the value of its fields. -/

namespace Sys2Proof.Machine

/-! ### Cutting a string where it is rounded -/

theorem any_id_eq_readBits_ne_zero (str : List Bool) : str.any id = decide (readBits str ≠ 0) := by
  induction str with
  | nil => rfl
  | cons b str ih => cases b <;> simp [readBits_cons, ih]

/-- A string of at least 16 bits is rounded by the number it writes (R72). -/
theorem roundUp_bits_eq_roundOff {str : List Bool} {n : Nat} (h : str.length = 16 + n) :
    roundUp (readBits (str.take 15)) (str.getD 15 false) ((str.drop 16).any id) = roundOff (readBits str) (n + 1) := by
  have lower : (str.drop 16).length = n := by simp [h]
  have guard : str.drop 15 = str.getD 15 false :: str.drop 16 := by
    rw [List.getD_eq_getElem _ _ (by omega), List.drop_eq_getElem_cons (by omega)]
  have parts : readBits str =
      2 ^ n * (2 * readBits (str.take 15) + (str.getD 15 false).toNat) + readBits (str.drop 16) := by
    conv_lhs => rw [← List.take_append_drop 15 str, guard]
    rw [readBits_append, readBits_cons, List.length_cons, lower]
    ring
  have below := readBits_lt (str.drop 16)
  rw [lower] at below
  rw [parts, roundOff_mul_add _ _ below, any_id_eq_readBits_ne_zero]

/-! ### Strings of one bit -/

@[simp] theorem readBits_zeros (n : Nat) : readBits (List.replicate n false) = 0 := by
  induction n with
  | zero => rfl
  | succ n ih => simp [List.replicate_succ, readBits_cons, ih]

theorem readBits_ones (n : Nat) : readBits (List.replicate n true) = 2 ^ n - 1 := by
  induction n with
  | zero => rfl
  | succ n ih =>
    have positive := Nat.two_pow_pos n
    rw [List.replicate_succ, readBits_cons, List.length_replicate, ih, Bool.toNat_true, pow_succ]
    omega

/-! ### The regime of a string -/

theorem regimeBits_length (k : Int) : (regimeBits k).length = regimeRun k + 1 := by
  unfold regimeBits regimeRun
  split <;> split <;> simp <;> omega

theorem readBits_regimeBits_neg {n : Nat} (h : 1 ≤ n) : readBits (regimeBits (-n)) = 1 := by
  rw [regimeBits, if_neg (by omega), readBits_append, readBits_zeros]
  rfl

theorem readBits_regimeBits_nonneg (n : Nat) : readBits (regimeBits n) = 2 * (2 ^ (n + 1) - 1) := by
  rw [regimeBits, if_pos (by omega), readBits_append, readBits_ones, mul_comm]
  rfl

/-- A string that starts with the regime of value `k` writes a number of that regime, with what follows in its room. -/
theorem inRegime_readBits (k : Int) (str : List Bool) :
    InRegime (regimeRun k + str.length) k (readBits str) (readBits (regimeBits k ++ str)) := by
  have run : -k ≤ regimeRun k ∧ k ≤ regimeRun k := by unfold regimeRun; split <;> omega
  refine ⟨by omega, by omega, by simpa [regimeRoom] using readBits_lt str, ?_⟩
  rw [readBits_append, Nat.add_right_cancel_iff]
  obtain ⟨n, hn, -, rfl⟩ | ⟨n, -, rfl⟩ := regime_cases (top := regimeRun k) (k := k) (by omega) (by omega)
  · rw [readBits_regimeBits_neg hn, regimeRun_neg hn, regimeStart_neg hn (by omega), Nat.add_sub_cancel_left, one_mul]
  · have room : n + 1 + str.length - n = str.length + 1 := by omega
    rw [readBits_regimeBits_nonneg, regimeRun_nonneg, regimeStart_nonneg_eq_mul (by omega), room]
    ring

/-! ### Zeros below a number -/

theorem scaled_mul_two_pow (s : Int) (f w n : Nat) : scaled s (f * 2 ^ n) (w + n) = scaled s f w := by
  unfold scaled
  rw [pow_add]
  push_cast
  field_simp

/-- A number above the least one of its regime value has room, which zeros below it make wider. -/
theorem InRegime.regimeRoom_add {top x p : Nat} {k : Int} (h : InRegime top k x p) (pos : 0 < x) (n : Nat) :
    0 < regimeRoom top k ∧ regimeRoom (top + n) k = regimeRoom top k + n := by
  have some_room : 0 < regimeRoom top k := by
    by_contra! no_room
    have := h.room
    rw [Nat.le_zero.mp no_room] at this
    omega
  refine ⟨some_room, ?_⟩
  unfold regimeRoom at *
  omega

theorem regimeStart_add {top : Nat} {k : Int} (lo : -top ≤ k) (hi : k ≤ top) (n : Nat) :
    regimeStart (top + n) k = regimeStart top k * 2 ^ n := by
  obtain ⟨m, hm, hmt, rfl⟩ | ⟨m, hm, rfl⟩ := regime_cases lo hi
  · rw [regimeStart_neg hm hmt, regimeStart_neg hm (by omega), ← pow_add, Nat.sub_add_comm hmt]
  · rw [regimeStart_nonneg_eq_mul hm, regimeStart_nonneg_eq_mul (by omega), Nat.sub_add_comm hm, pow_add, mul_right_comm]

/-- Zeros below a number keep its regime. -/
theorem InRegime.mul_two_pow {top x p : Nat} {k : Int} (h : InRegime top k x p) (n : Nat) :
    InRegime (top + n) k (x * 2 ^ n) (p * 2 ^ n) := by
  have lo := h.lo
  have hi := h.hi
  refine ⟨by omega, by omega, ?_, by rw [h.eq, add_mul, regimeStart_add lo hi]⟩
  obtain rfl | pos := x.eq_zero_or_pos
  · simp
  · rw [(h.regimeRoom_add pos n).2, pow_add]
    exact Nat.mul_lt_mul_of_pos_right h.room (Nat.two_pow_pos n)

/-- Zeros below a number do not change the value of its fields. -/
theorem fieldsFrom_mul_two_pow_value {top p : Nat} (n : Nat) (pos : 0 < p) (bound : p < 2 ^ (top + 1)) :
    (fieldsFrom (top + n) (p * 2 ^ n)).value = (fieldsFrom top p).value := by
  obtain ⟨k, x, h⟩ := exists_inRegime pos bound
  rw [h.value_eq, (h.mul_two_pow n).value_eq]
  obtain rfl | above := x.eq_zero_or_pos
  · simp [scaled]
  · obtain ⟨some_room, room⟩ := h.regimeRoom_add above n
    rw [room, Nat.sub_add_comm some_room, pow_add, Nat.mul_div_mul_right _ _ (Nat.two_pow_pos n), Nat.mul_mod_mul_right,
      scaled_mul_two_pow]

/-! ### The number that `assemble` rounds -/

/-- The regime, exponent and fraction bits of `2^s × (1 + M / 2^mw)`, read as one number (R72). -/
def positNumber (s : Int) (M mw : Nat) : Nat := readBits (positBits s M mw)

/-- The bit at which the regime of that number starts. -/
def positTop (s : Int) (mw : Nat) : Nat := regimeRun (s / 2) + 1 + mw

theorem positBits_length (s : Int) (M mw : Nat) : (positBits s M mw).length = positTop s mw + 1 := by
  simp [positBits, positTop, regimeBits_length]
  omega

theorem inRegime_positNumber (s : Int) {M mw : Nat} (h : M < 2 ^ mw) :
    InRegime (positTop s mw) (s / 2) ((s % 2).toNat * 2 ^ mw + M) (positNumber s M mw) := by
  have exponent : (decide (s % 2 = 1)).toNat = (s % 2).toNat := by
    obtain even | odd := Int.emod_two_eq_zero_or_one s
    · simp [even]
    · simp [odd]
  have inRegime := inRegime_readBits (s / 2) (decide (s % 2 = 1) :: bitsDown M mw)
  rwa [readBits_cons, exponent, readBits_bitsDown, Nat.mod_eq_of_lt h, List.length_cons, bitsDown_length, add_comm mw, ← add_assoc]
    at inRegime

theorem fieldsFrom_positNumber_value (s : Int) {M mw : Nat} (h : M < 2 ^ mw) :
    (fieldsFrom (positTop s mw) (positNumber s M mw)).value = scaled s M mw := by
  have width : regimeRoom (positTop s mw) (s / 2) - 1 = mw := by simp [regimeRoom, positTop]; omega
  have scale : 2 * (s / 2) + ((s % 2).toNat : Int) = s := by omega
  rw [(inRegime_positNumber s h).value_eq, width, mul_comm _ (2 ^ mw), Nat.mul_add_div (Nat.two_pow_pos mw), Nat.mul_add_mod,
    Nat.div_eq_of_lt h, Nat.mod_eq_of_lt h, Nat.add_zero, scale]

theorem readBits_padTo16 (str : List Bool) : readBits (padTo16 str) = readBits str * 2 ^ (16 - str.length) := by
  rw [padTo16, readBits_append, readBits_zeros, List.length_replicate, Nat.add_zero]

theorem padTo16_length (str : List Bool) : (padTo16 str).length = 16 + (str.length - 16) := by
  simp [padTo16]
  omega

/-- The same number once the string is padded to 16 bits. -/
def paddedNumber (s : Int) (M mw : Nat) : Nat := positNumber s M mw * 2 ^ (15 - positTop s mw)

/-- How many bits of that number lie below its guard bit. -/
def stickyWidth (s : Int) (mw : Nat) : Nat := positTop s mw - 15

/-- R72 as rounding of one number. -/
theorem assemble_eq (s : Int) (M mw : Nat) :
    assemble s M mw = BitVec.ofNat 16 (roundOff (paddedNumber s M mw) (stickyWidth s mw + 1)) := by
  have length := padTo16_length (positBits s M mw)
  have number := readBits_padTo16 (positBits s M mw)
  have padding : 16 - (positTop s mw + 1) = 15 - positTop s mw := by omega
  have beyond : positTop s mw + 1 - 16 = stickyWidth s mw := by unfold stickyWidth; omega
  rw [positBits_length, padding] at number
  rw [positBits_length, beyond] at length
  rw [assemble, roundUp_bits_eq_roundOff length, number, paddedNumber, positNumber]

theorem positTop_add_padding (s : Int) (mw : Nat) : positTop s mw + (15 - positTop s mw) = 15 + stickyWidth s mw := by
  unfold stickyWidth
  omega

theorem inRegime_paddedNumber (s : Int) {M mw : Nat} (h : M < 2 ^ mw) :
    ∃ x, InRegime (15 + stickyWidth s mw) (s / 2) x (paddedNumber s M mw) := by
  have padded := (inRegime_positNumber s h).mul_two_pow (15 - positTop s mw)
  rw [positTop_add_padding] at padded
  exact ⟨_, padded⟩

theorem fieldsFrom_paddedNumber_value (s : Int) {M mw : Nat} (h : M < 2 ^ mw) :
    (fieldsFrom (15 + stickyWidth s mw) (paddedNumber s M mw)).value = scaled s M mw := by
  have inRegime := inRegime_positNumber s h
  rw [← positTop_add_padding, paddedNumber, fieldsFrom_mul_two_pow_value _ inRegime.pos inRegime.lt_two_pow,
    fieldsFrom_positNumber_value s h]

end Sys2Proof.Machine
end

section
/-! SUPPORT. Rounding to a posit (R110): a number of a wider posit format rounded as an integer is rounded as a posit, so that
`assemble` rounds to a posit; and the order that `RoundsToPosit` keeps. -/

namespace Sys2Proof.Machine

/-! ### The boundaries between patterns -/

theorem value17_lt {q r : Nat} (pos : 0 < q) (h : q < r) (bound : r < 2 ^ 16) : value17 q < value17 r :=
  fieldsFrom_value_lt pos h bound

theorem value17_eq_wide {q : Nat} (n : Nat) (pos : 0 < q) (bound : q < 2 ^ 16) :
    value17 q = (fieldsFrom (15 + n) (q * 2 ^ n)).value := (fieldsFrom_mul_two_pow_value n pos bound).symm

/-- A number of a regime value from -14 to 13 lies between the least and the greatest pattern, counted in halves of a unit `2^(n+1)`. -/
theorem InRegime.bounds {n x Z : Nat} {k : Int} (h : InRegime (15 + n) k x Z) (lo : -14 ≤ k) (hi : k ≤ 13) :
    2 ^ n * 2 ≤ Z ∧ Z < 2 ^ n * 0xFFFE := by
  have least : regimeStart (15 + n) (-14) = 2 ^ n * 2 := by
    rw [show (-14 : Int) = -(14 : Nat) by rfl, regimeStart_neg (by decide) (by omega), ← pow_succ]
    congr 1
    omega
  have greatest : regimeStart (15 + n) 14 = 2 ^ n * 0xFFFE := by
    rw [show (14 : Int) = (14 : Nat) by rfl, regimeStart_nonneg_eq_mul (by omega), show 15 + n - 14 = n + 1 by omega, pow_succ,
      mul_assoc]
    rfl
  have above : regimeStart (15 + n) (-14) ≤ regimeStart (15 + n) k := by
    obtain rfl | greater := lo.eq_or_lt
    · exact le_rfl
    · exact Nat.le_of_add_right_le (regimeStart_add_le (by omega) (by omega) greater)
  have below := regimeStart_add_le (top := 15 + n) (k := k) (k' := 14) (by omega) (by omega) (by omega)
  have room := h.room
  rw [h.eq]
  omega

/-- The rounded number of such a regime is a positive pattern (R72): never ZERO, never NaR. -/
theorem InRegime.roundOff_bounds {n x Z : Nat} {k : Int} (h : InRegime (15 + n) k x Z) (lo : -14 ≤ k) (hi : k ≤ 13) :
    1 ≤ roundOff Z (n + 1) ∧ roundOff Z (n + 1) ≤ 0x7FFF := by
  obtain ⟨least, greatest⟩ := h.bounds lo hi
  obtain ⟨⟨below, above⟩, -⟩ := roundsToEvenInt_div_iff.mp (roundsToEvenInt_roundOff Z (n + 1))
  have unit := Nat.two_pow_pos n
  constructor
  · by_contra! zero
    rw [Nat.lt_one_iff.mp zero] at above
    omega
  · have := Nat.lt_of_mul_lt_mul_left (a := 2 ^ n) (b := 2 * roundOff Z (n + 1)) (c := 0xFFFF) (by omega)
    omega

/-- Rounding to the nearest integer, ties to even, is rounding to a posit at the level of the bits (R72, R110): the boundaries beside
the pattern `p` are `2p - 1` and `2p + 1` halves of a unit, and the values of a format are in the order of its numbers. -/
theorem InRegime.roundsToPosit {n x Z : Nat} {k : Int} {p : Pattern} (h : InRegime (15 + n) k x Z) (lo : -14 ≤ k) (hi : k ≤ 13)
    (hp : p.toNat = roundOff Z (n + 1)) : RoundsToPosit (fieldsFrom (15 + n) Z).value p := by
  obtain ⟨least, greatest⟩ := h.roundOff_bounds lo hi
  obtain ⟨⟨below, above⟩, tie⟩ := roundsToEvenInt_div_iff.mp (roundsToEvenInt_roundOff Z (n + 1))
  rw [← hp] at least greatest below above tie
  have unit := Nat.two_pow_pos n
  have lower : (2 * p.toNat - 1) * 2 ^ n + 2 ^ n = 2 ^ n * (2 * p.toNat) := by
    rw [← Nat.succ_mul, mul_comm]
    congr 1
    omega
  have upper : (2 * p.toNat + 1) * 2 ^ n = 2 ^ n * (2 * p.toNat) + 2 ^ n := by ring
  rw [RoundsToPosit, value17_eq_wide n (by omega) (by omega), value17_eq_wide n (by omega) (by omega)]
  refine ⟨least, greatest, .inr ?_, .inr ?_⟩
  · obtain same | less := (show (2 * p.toNat - 1) * 2 ^ n ≤ Z by omega).eq_or_lt
    · exact .inr ⟨by rw [same], tie (.inl (by omega))⟩
    · exact .inl (fieldsFrom_value_lt (Nat.mul_pos (by omega) unit) less h.lt_two_pow)
  · obtain same | less := (show Z ≤ (2 * p.toNat + 1) * 2 ^ n by omega).eq_or_lt
    · exact .inr ⟨by rw [same], tie (.inr (by omega))⟩
    · have fits : (2 * p.toNat + 1) * 2 ^ n < 2 ^ (15 + n + 1) := by
        rw [show 15 + n + 1 = 16 + n by omega, pow_add]
        exact Nat.mul_lt_mul_of_pos_right (by omega) unit
      exact .inl (fieldsFrom_value_lt h.pos less fits)

section
variable {s : Int} {M mw : Nat} (lo : -28 ≤ s) (hi : s ≤ 27) (h : M < 2 ^ mw)
include lo hi h

theorem assemble_toNat : (assemble s M mw).toNat = roundOff (paddedNumber s M mw) (stickyWidth s mw + 1) := by
  obtain ⟨x, inRegime⟩ := inRegime_paddedNumber s h
  obtain ⟨-, bound⟩ := inRegime.roundOff_bounds (by omega) (by omega)
  rw [assemble_eq, BitVec.toNat_ofNat, Nat.mod_eq_of_lt (by omega)]

theorem roundsToPosit_assemble : RoundsToPosit (scaled s M mw) (assemble s M mw) := by
  obtain ⟨x, inRegime⟩ := inRegime_paddedNumber s h
  rw [← fieldsFrom_paddedNumber_value s h]
  exact inRegime.roundsToPosit (by omega) (by omega) (assemble_toNat lo hi h)

end

/-! ### The order of rounded numbers -/

/-- A greater number rounds to a greater pattern: else it would be at or below the boundary that the other is at or above, and both
patterns beside that boundary would be even. -/
theorem RoundsToPosit.mono {x y : Rat} {p q : Pattern} (hp : RoundsToPosit x p) (hq : RoundsToPosit y q) (h : x ≤ y) :
    p.toNat ≤ q.toNat := by
  obtain ⟨-, bound, lower, -⟩ := hp
  obtain ⟨positive, -, -, upper⟩ := hq
  by_contra! less
  have lower := lower.resolve_left (by omega)
  have upper := upper.resolve_left (by omega)
  have x_above : value17 (2 * p.toNat - 1) ≤ x := lower.elim le_of_lt fun tie => tie.1.le
  have y_below : y ≤ value17 (2 * q.toNat + 1) := upper.elim le_of_lt fun tie => tie.1.le
  obtain same | apart := (show 2 * q.toNat + 1 ≤ 2 * p.toNat - 1 by omega).eq_or_lt
  · rw [← same] at lower x_above
    obtain ⟨-, p_even⟩ := lower.resolve_left (by linarith)
    obtain ⟨-, q_even⟩ := upper.resolve_left (by linarith)
    omega
  · linarith [value17_lt (by omega) apart (by omega)]

/-- Between two numbers with one pattern every number has that pattern. -/
theorem RoundsToPosit.eq_of_between {x y z : Rat} {p q : Pattern} (hx : RoundsToPosit x p) (hz : RoundsToPosit z p)
    (hy : RoundsToPosit y q) (lo : x ≤ y) (hi : y ≤ z) : q = p :=
  BitVec.eq_of_toNat_eq ((hy.mono hz hi).antisymm (hx.mono hy lo))

/-- Above MAX there is no boundary (R110). -/
theorem RoundsToPosit.max_of_le {x y : Rat} (hx : RoundsToPosit x MAX) (h : x ≤ y) : RoundsToPosit y MAX := by
  obtain ⟨positive, bound, lower, -⟩ := hx
  refine ⟨positive, bound, .inr (.inl ?_), .inl rfl⟩
  obtain least | above | ⟨-, even⟩ := lower
  · exact absurd least (by decide)
  · exact above.trans_le h
  · exact absurd even (by decide)

end Sys2Proof.Machine
end

section
/-! SUPPORT. The magnitude encoder (R73): step 4 puts together the number that `assemble` rounds, so that the encoder is `assemble` of
the integer's scale and fraction below the first threshold, and by the order of rounded numbers everywhere (R75). -/

namespace Sys2Proof.Machine

/-! ### The integer as a scale and a fraction -/

theorem two_pow_log2_add_mod {u : Nat} (h : 1 ≤ u) : 2 ^ u.log2 + u % 2 ^ u.log2 = u := by
  have lo := Nat.log2_self_le (Nat.one_le_iff_ne_zero.mp h)
  have hi : u < 2 ^ (u.log2 + 1) := Nat.lt_log2_self
  rw [pow_succ] at hi
  rw [Nat.mod_eq_sub_mod lo, Nat.mod_eq_of_lt (by omega), Nat.add_sub_cancel' lo]

theorem scaled_log2 {u : Nat} (h : 1 ≤ u) : scaled u.log2 (u % 2 ^ u.log2) u.log2 = u := by
  have sum : (2 : Rat) ^ u.log2 + (u % 2 ^ u.log2 : Nat) = u := by exact_mod_cast two_pow_log2_add_mod h
  rw [scaled, zpow_natCast, mul_add, mul_div_cancel₀ _ (by positivity), mul_one, sum]

/-- `assemble` of the scale and the fraction of an integer (R75). -/
def assembleNat (u : Nat) : Pattern := assemble u.log2 (u % 2 ^ u.log2) u.log2

theorem roundsToPosit_assembleNat {u : Nat} (lo : 1 ≤ u) (hi : u < 2 ^ 28) : RoundsToPosit (u : Rat) (assembleNat u) := by
  have scale : u.log2 < 28 := (Nat.log2_lt (by omega)).mpr hi
  have rounds := roundsToPosit_assemble (s := u.log2) (by omega) (by omega) (Nat.mod_lt u (Nat.two_pow_pos u.log2))
  rwa [scaled_log2 lo] at rounds

theorem assembleNat_eq_of_between {a b u : Nat} {p : Pattern} (pos : 1 ≤ a) (ha : assembleNat a = p) (hb : assembleNat b = p)
    (lo : a ≤ u) (hi : u ≤ b) (bound : b < 2 ^ 28) : assembleNat u = p := by
  have first := roundsToPosit_assembleNat pos (by omega)
  have last := roundsToPosit_assembleNat (by omega) bound
  rw [ha] at first
  rw [hb] at last
  exact first.eq_of_between last (roundsToPosit_assembleNat (by omega) (by omega)) (by exact_mod_cast lo) (by exact_mod_cast hi)

/-! ### Step 4 -/

/-- The bits of a positive integer's scale and fraction as `assemble` puts them together. -/
def natNumber (u : Nat) : Nat := positNumber u.log2 (u % 2 ^ u.log2) u.log2

theorem positTop_natCast (m mw : Nat) : positTop m mw = m / 2 + 2 + mw := by
  rw [positTop, show ((m : Int) / 2) = (m / 2 : Nat) by omega, regimeRun_nonneg]

theorem natNumber_eq (u : Nat) :
    natNumber u = 2 ^ u.log2 * (4 * (2 ^ (u.log2 / 2 + 1) - 1) + u.log2 % 2) + u % 2 ^ u.log2 := by
  have regime : ((u.log2 : Int) / 2) = (u.log2 / 2 : Nat) := by omega
  have exponent : ((u.log2 : Int) % 2).toNat = u.log2 % 2 := by omega
  have room : u.log2 / 2 + 2 + u.log2 - u.log2 / 2 = u.log2 + 2 := by omega
  rw [natNumber, (inRegime_positNumber u.log2 (Nat.mod_lt u (Nat.two_pow_pos _))).eq, positTop_natCast, regime, exponent,
    regimeStart_nonneg_eq_mul (by omega), room]
  ring

/-- The regime and the exponent bit of step 4, put together as one number. -/
theorem regime_or_exponent : ∀ k < 13, ∀ e < 2,
    (0x7FFF ^^^ (0x3FFF >>> k)) ||| e <<< (12 - k) = 2 ^ (12 - k) * (4 * (2 ^ (k + 1) - 1) + e) := by decide

section
variable {m d t : Nat} (a : Nat)

theorem shiftRight_two_pow_mul_add (hd : d ≤ m) : (2 ^ m * a + t) >>> d = 2 ^ (m - d) * a + t >>> d := by
  have split : 2 ^ m = 2 ^ d * 2 ^ (m - d) := by rw [← pow_add, Nat.add_sub_cancel' hd]
  rw [Nat.shiftRight_eq_div_pow, Nat.shiftRight_eq_div_pow, split, mul_assoc, Nat.mul_add_div (Nat.two_pow_pos d)]

theorem guardBit_two_pow_mul_add (ht : t < 2 ^ m) (hd : d ≤ m) : guardBit (2 ^ m * a + t) d = guardBit t d := by
  rw [guardBit, guardBit, Nat.testBit_two_pow_mul_add _ ht]
  cases d with
  | zero => rfl
  | succ d => rw [if_pos (by omega)]

theorem stickyBit_two_pow_mul_add (hd : d ≤ m) : stickyBit (2 ^ m * a + t) d = stickyBit t d := by
  obtain ⟨b, hb⟩ := pow_dvd_pow 2 (show d - 1 ≤ m by omega)
  rw [stickyBit, stickyBit, hb, mul_assoc, Nat.mul_add_mod]

end

/-- The width `fw` that step 4 leaves the fraction (R73). -/
def fractionWidth (u : Nat) : Nat := 12 - u.log2 / 2

/-- How many bits of the integer step 4 discards, `d` (R73). -/
def discardedBits (u : Nat) : Nat := u.log2 - fractionWidth u

/-- Step 4 over the one number that its three parts make (R73): exact where the fraction is wider than the integer, else with the low
bits of that number cut off. -/
theorem encBody_eq {u : Nat} (h : u.log2 ≤ 25) :
    encBody u =
      if fractionWidth u ≤ u.log2 then
        (natNumber u >>> discardedBits u, guardBit (natNumber u) (discardedBits u), stickyBit (natNumber u) (discardedBits u))
      else (natNumber u * 2 ^ (fractionWidth u - u.log2), false, false) := by
  have fraction := Nat.mod_lt u (Nat.two_pow_pos u.log2)
  have parts := regime_or_exponent (u.log2 / 2) (by omega) (u.log2 % 2) (by omega)
  simp only [encBody, msb, Nat.shiftRight_one, Nat.and_one_is_mod, parts]
  rw [natNumber_eq, ← fractionWidth, ← discardedBits]
  split
  case isTrue cut =>
    have some_cut : discardedBits u ≤ u.log2 := Nat.sub_le _ _
    have width : u.log2 - discardedBits u = fractionWidth u := Nat.sub_sub_self cut
    have kept : (u % 2 ^ u.log2) >>> discardedBits u < 2 ^ fractionWidth u := by
      rwa [Nat.shiftRight_eq_div_pow, Nat.div_lt_iff_lt_mul (Nat.two_pow_pos _), ← pow_add, ← width, Nat.sub_add_cancel some_cut]
    rw [shiftRight_two_pow_mul_add _ some_cut, guardBit_two_pow_mul_add _ fraction some_cut, stickyBit_two_pow_mul_add _ some_cut,
      width, Nat.two_pow_add_eq_or_of_lt kept]
  case isFalse wider =>
    have width : u.log2 + (fractionWidth u - u.log2) = fractionWidth u := by omega
    have kept := Nat.shiftLeft_lt (m := fractionWidth u - u.log2) fraction
    rw [width] at kept
    rw [← Nat.two_pow_add_eq_or_of_lt kept, Nat.shiftLeft_eq, add_mul, mul_right_comm, ← pow_add, width]

/-- Where the fraction has room for every bit of the integer, nothing is cut off (R73). -/
theorem encBody_exact {u : Nat} (h : u.log2 ≤ fractionWidth u) :
    encBody u = (natNumber u * 2 ^ (fractionWidth u - u.log2), false, false) := by
  have small : u.log2 ≤ 25 := by unfold fractionWidth at h; omega
  rw [encBody_eq small]
  split
  case isTrue cut =>
    rw [discardedBits, h.antisymm cut, Nat.sub_self, pow_zero, mul_one]
    rfl
  case isFalse => rfl

/-- Step 5 on the body of step 4 is what `assemble` does to the same number (R72, R73). -/
theorem roundUp_encBody {u : Nat} (h : u.log2 ≤ 25) :
    roundUp (encBody u).1 (encBody u).2.1 (encBody u).2.2 = (assembleNat u).toNat := by
  have top := positTop_natCast u.log2 u.log2
  rw [assembleNat, assemble_toNat (by omega) (by omega) (Nat.mod_lt u (Nat.two_pow_pos _)), paddedNumber, stickyWidth, top, ← natNumber]
  obtain exact | cut := le_or_gt u.log2 (fractionWidth u)
  · have zeros : 15 - (u.log2 / 2 + 2 + u.log2) = fractionWidth u - u.log2 + 1 := by unfold fractionWidth at *; omega
    have no_sticky_bit : u.log2 / 2 + 2 + u.log2 - 15 = 0 := by omega
    rw [encBody_exact exact, zeros, no_sticky_bit, pow_succ', mul_left_comm, roundOff_two_mul, roundUp_of_no_guard]
  · have no_zeros : 15 - (u.log2 / 2 + 2 + u.log2) = 0 := by unfold fractionWidth at cut; omega
    have discarded : u.log2 / 2 + 2 + u.log2 - 15 + 1 = discardedBits u := by unfold discardedBits fractionWidth at *; omega
    rw [encBody_eq h, if_pos cut.le, no_zeros, discarded, pow_zero, mul_one, roundOff]

/-! ### The encoder -/

section
variable {u : Nat} (lo : 2 ≤ u) (hi : u ≤ 0x02FFFFFF)
include lo hi

theorem log2_le_of_step4 : u.log2 ≤ 25 := Nat.le_of_lt_succ ((Nat.log2_lt (by omega)).mpr (by omega))

theorem encMag_of_step4 : encMag u = assembleNat u := by
  rw [encMag, if_neg (by omega), if_neg (by omega), if_neg (by omega)]
  dsimp only
  rw [roundUp_encBody (log2_le_of_step4 lo hi), BitVec.ofNat_toNat, BitVec.setWidth_eq]

/-- The rounded body fits the pattern: `bits16` of it drops nothing. -/
theorem roundUp_encBody_eq_encMag : roundUp (encBody u).1 (encBody u).2.1 (encBody u).2.2 = (encMag u).toNat := by
  rw [encMag_of_step4 lo hi, roundUp_encBody (log2_le_of_step4 lo hi)]

end

theorem encMag_of_gt {u : Nat} (h : 0x08000000 < u) : encMag u = MAX := if_pos h

/-- R75: each threshold of steps 1 to 3 is where `assemble` itself reaches the pattern that the step answers. -/
theorem encMag_eq_assembleNat {u : Nat} (lo : 1 ≤ u) (hi : u < 2 ^ 28) : encMag u = assembleNat u := by
  obtain rfl | step4 := lo.eq_or_lt
  · decide
  obtain below | step2 := Nat.lt_or_ge u 0x03000000
  · exact encMag_of_step4 step4 (by omega)
  obtain below | step1 := Nat.lt_or_ge 0x08000000 u
  · rw [encMag_of_gt below]
    exact (assembleNat_eq_of_between (a := 0x08000001) (b := 2 ^ 28 - 1) (by decide) (by decide) (by decide) (by omega) (by omega)
      (by decide)).symm
  · rw [encMag, if_neg (by omega), if_pos (by omega)]
    exact (assembleNat_eq_of_between (a := 0x03000000) (b := 0x08000000) (by decide) (by decide) (by decide) step2 step1
      (by decide)).symm

theorem roundsToPosit_encMag {u : Nat} (h : 1 ≤ u) : RoundsToPosit (u : Rat) (encMag u) := by
  obtain below | above := Nat.lt_or_ge u (2 ^ 28)
  · rw [encMag_eq_assembleNat h below]
    exact roundsToPosit_assembleNat h below
  · have last : assembleNat (2 ^ 28 - 1) = MAX := by decide
    have rounds := roundsToPosit_assembleNat (u := 2 ^ 28 - 1) (by decide) (by decide)
    rw [last] at rounds
    rw [encMag_of_gt (by omega)]
    exact rounds.max_of_le (by exact_mod_cast (Nat.sub_le _ 1).trans above)

theorem encMag_zero : encMag 0 = 0x0000#16 := by decide

theorem encMag_pos {u : Nat} (h : 1 ≤ u) : 1 ≤ (encMag u).toNat := (roundsToPosit_encMag h).1

theorem encMag_lt (u : Nat) : (encMag u).toNat < 0x8000 := by
  obtain rfl | pos := u.eq_zero_or_pos
  · decide
  · obtain ⟨-, bound, -⟩ := roundsToPosit_encMag pos
    omega

theorem encMag_mono {u u' : Nat} (h : u ≤ u') : (encMag u).toNat ≤ (encMag u').toNat := by
  obtain rfl | pos := u.eq_zero_or_pos
  · rw [encMag_zero]
    exact Nat.zero_le _
  · exact (roundsToPosit_encMag pos).mono (roundsToPosit_encMag (pos.trans_le h)) (by exact_mod_cast h)

end Sys2Proof.Machine
end

section
/-! SUPPORT. The corner cases of the magnitude encoder (R73), and what the ops ENCU32, ENCU64 and RNE deliver (R71, R73, R74). -/

namespace Sys2Proof.Machine

/-! ### The corner cases -/

/-- Between two integers with one result every integer has that result. -/
theorem encMag_eq_of_between {a b u : Nat} {p : Pattern} (ha : encMag a = p) (hb : encMag b = p) (lo : a ≤ u) (hi : u ≤ b) :
    encMag u = p := by
  have below := encMag_mono hi
  rw [hb, ← ha] at below
  rw [← ha]
  exact BitVec.eq_of_toNat_eq (below.antisymm (encMag_mono lo))

/-- Up to 511 the fraction has room for every bit of the integer. -/
theorem log2_le_fractionWidth {u : Nat} (hi : u ≤ 511) : u.log2 ≤ fractionWidth u := by
  have scale : u.log2 < 9 := by
    rw [Nat.log2_eq_log_two]
    exact Nat.log_lt_of_lt_pow' (by decide) (by omega)
  unfold fractionWidth
  omega

/-- Where nothing is cut off the value of the pattern is the integer: both are that of the same bits. -/
theorem value_encMag_of_le {u : Nat} (lo : 2 ≤ u) (hi : u ≤ 511) : value (encMag u) = some (u : Rat) := by
  have exact := log2_le_fractionWidth hi
  have fraction := Nat.mod_lt u (Nat.two_pow_pos u.log2)
  have width : positTop u.log2 u.log2 + (fractionWidth u - u.log2) = 14 := by
    rw [positTop_natCast]
    unfold fractionWidth at *
    omega
  have number : (encMag u).toNat = natNumber u * 2 ^ (fractionWidth u - u.log2) := by
    rw [← roundUp_encBody_eq_encMag lo (by omega), encBody_exact exact, roundUp_of_no_guard]
  have inRegime := inRegime_positNumber u.log2 fraction
  have positive := (classify_eq_positive_iff (encMag u)).mpr ⟨encMag_pos (by omega), Nat.le_of_lt_succ (encMag_lt u)⟩
  rw [value_of_positive positive, fields, number, natNumber, ← width,
    fieldsFrom_mul_two_pow_value _ inRegime.pos inRegime.lt_two_pow, fieldsFrom_positNumber_value _ fraction,
    scaled_log2 (by omega)]

/-- Steps 4 and 5 reach no pattern above that of the last integer below the first threshold. -/
theorem encMag_le_of_step4 {u : Nat} (hi : u ≤ 0x02FFFFFF) : (encMag u).toNat ≤ 0x7FFD := by
  have last : encMag 0x02FFFFFF = 0x7FFD#16 := by decide
  have bound := encMag_mono hi
  rwa [last] at bound

theorem body_le_of_increment {u : Nat} (lo : 2 ≤ u) (hi : u ≤ 0x02FFFFFF)
    (increment : rneInc ((encBody u).1.testBit 0) (encBody u).2.1 (encBody u).2.2 = true) : (encBody u).1 ≤ 0x7FFC := by
  have bound := encMag_le_of_step4 hi
  rw [← roundUp_encBody_eq_encMag lo hi, roundUp, increment, Bool.toNat_true] at bound
  omega

/-! ### The ops -/

/-- What `exec` does where the transaction is well formed (R135). -/
theorem exec_of_wf {i : Instr} {s : State} (h : i.wf s.build = true) :
    exec i s = .next (s.deliver { y := resultOf s.build i, illegal := false }) := by
  rw [exec_eq, EXEC_of_wf h]

theorem exec_encU64 (a : Word) (s : State) :
    exec (.encU64 a) s = .next (s.deliver { y := placePattern (encMag a.toNat), illegal := false }) := by
  rw [exec_of_wf rfl, resultOf, resEncU64, opU64_eq]

theorem exec_encU32 (a : Word) (s : State) :
    exec (.encU32 a) s = .next (s.deliver { y := placePattern (encMag (a.toNat % 2 ^ 32)), illegal := false }) := by
  rw [exec_of_wf rfl, resultOf, resEncU32, opU32_eq]

/-- The eight rows of R71. -/
theorem rneInc_rows : ∀ b : BitVec 3, placeBit (rneInc (b.getLsbD 0) (b.getLsbD 1) (b.getLsbD 2)) =
    if b = 0b011#3 ∨ b = 0b110#3 ∨ b = 0b111#3 then 1#64 else 0#64 := by decide

end Sys2Proof.Machine
end

section
/-! SUPPORT. The statements of the magnitude encoder family O6 to O8 and O35 to O38. -/

namespace Sys2Proof.Machine

/-- Settles O36: the bits of the number are a number of a wider posit format with the same value, whose rounding as an integer is its
rounding as a posit. -/
theorem assembleIsPositRounding : Obligations.AssembleIsPositRounding := fun _ _ _ => roundsToPosit_assemble

/-- Settles O37: step 4 puts together the number that `assemble` rounds, the thresholds are where `assemble` reaches their patterns,
and posit rounding keeps the order. -/
theorem encMagRoundsByAssemble : Obligations.EncMagRoundsByAssemble := by
  refine ⟨encMag_zero, fun u => encMag_eq_assembleNat, fun u above => encMag_of_gt (by omega), fun u pos zero => ?_,
    fun u nar => ?_, fun u u' => encMag_mono⟩
  · have positive := encMag_pos pos
    rw [zero] at positive
    exact absurd positive (by decide)
  · have bound := encMag_lt u
    rw [nar] at bound
    exact absurd bound (by decide)

/-- Settles O38: below 2^28 as `assemble` of the integer's scale and fraction, and from there on as MAX, which has no boundary above. -/
theorem encMagIsPositRounding : Obligations.EncMagIsPositRounding := fun _ => roundsToPosit_encMag

/-- Settles O6: the exact cases by the room that the fraction has, the others by the order of the results between two computed
ends. -/
theorem encu64Result : Obligations.Encu64Result := by
  refine ⟨decode_append _, exec_encU64, encMag_zero, by decide, by decide, fun u lo hi => ?_, by decide,
    fun u => encMag_eq_of_between (by decide) (by decide), fun u => encMag_eq_of_between (by decide) (by decide),
    fun u => encMag_eq_of_between (by decide) (by decide), fun u above _ => encMag_of_gt above, fun u _ => encMag_lt u,
    fun u lo hi => ⟨encMag_le_of_step4 hi, body_le_of_increment lo hi⟩⟩
  exact ⟨by rw [encBody_exact (log2_le_fractionWidth hi)], value_encMag_of_le lo hi⟩

/-- Settles O7: both variants run `encMag`, on operands that are equal below 2^32. -/
theorem encu32Result : Obligations.Encu32Result := by
  refine ⟨decode_append _, exec_encU32, fun a s below => ?_, by decide, by decide⟩
  rw [exec_encU32, exec_encU64, Nat.mod_eq_of_lt below]

/-- Settles O35: the retained, guard and sticky bits say on which side of the half the number lies. -/
theorem rneRoundsToNearestEven : Obligations.RneRoundsToNearestEven := roundsToEvenInt_roundOff

/-- Settles O8: the result reads the operand through its low three bits, whose eight values are the table. -/
theorem rneTruthTable : Obligations.RneTruthTable := by
  refine ⟨decode_append _, fun a s => ?_⟩
  rw [exec_of_wf rfl, resultOf, resRne_eq, rneInc_rows]

end Sys2Proof.Machine
end

section
/-! SUPPORT. The magnitude decoder (R85): what step 4 does to the number it cuts, and that every step answers the value of the pattern
rounded to the nearest integer, ties to even (R88). -/

namespace Sys2Proof.Machine

/-! ### Rounding to the nearest integer -/

theorem roundsToEvenInt_natCast (n : Nat) : RoundsToEvenInt (n : Rat) n := by simp [RoundsToEvenInt]

theorem roundsToEvenInt_of_lt {x : Rat} {n : Int} (lo : n - 1 / 2 < x) (hi : x < n + 1 / 2) : RoundsToEvenInt x n := by
  have near : |x - n| < 1 / 2 := abs_sub_lt_iff.mpr ⟨by linarith, by linarith⟩
  exact ⟨near.le, fun tie => absurd tie near.ne⟩

/-- Both ties beside an even integer go to it. -/
theorem roundsToEvenInt_of_le {x : Rat} {n : Int} (even : n % 2 = 0) (lo : n - 1 / 2 ≤ x) (hi : x ≤ n + 1 / 2) :
    RoundsToEvenInt x n :=
  ⟨abs_sub_le_iff.mpr ⟨by linarith, by linarith⟩, fun _ => even⟩

/-- Rounding keeps the order: out of order, the two results would be the neighbours of one tie, and both even. -/
theorem RoundsToEvenInt.mono {x y : Rat} {m n : Int} (hx : RoundsToEvenInt x m) (hy : RoundsToEvenInt y n) (h : x ≤ y) :
    m ≤ n := by
  obtain ⟨near_m, even_m⟩ := hx
  obtain ⟨near_n, even_n⟩ := hy
  by_contra! less
  obtain ⟨-, below_m⟩ := abs_sub_le_iff.mp near_m
  obtain ⟨above_n, -⟩ := abs_sub_le_iff.mp near_n
  have apart : (n : Rat) + 1 ≤ m := by exact_mod_cast less
  have tie_m : x - m = -(1 / 2) := by linarith
  have tie_n : y - n = 1 / 2 := by linarith
  have neighbours : m = n + 1 := by exact_mod_cast (show (m : Rat) = n + 1 by linarith)
  have := even_m (by rw [tie_m]; norm_num)
  have := even_n (by rw [tie_n]; norm_num)
  omega

/-! ### Step 4 -/

/-- `N`, the fraction of a pattern with the implicit leading one above it (R85). -/
def significand (x : Fields) : Nat := (1 <<< x.fw) ||| x.f

theorem significand_eq {x : Fields} (h : x.f < 2 ^ x.fw) : significand x = 2 ^ x.fw + x.f := by
  rw [significand, ← Nat.shiftLeft_add_eq_or_of_lt h, Nat.shiftLeft_eq, one_mul]

theorem decRounded_of_le {x : Fields} {s : Nat} (hs : x.scale = s) (h : x.fw ≤ s) :
    decRounded x = significand x * 2 ^ (s - x.fw) := by
  rw [← Nat.shiftLeft_eq]
  simp only [decRounded, hs, Int.toNat_natCast, if_pos h, significand]

theorem decRounded_of_gt {x : Fields} {s : Nat} (hs : x.scale = s) (h : s < x.fw) :
    decRounded x = roundOff (significand x) (x.fw - s) := by
  simp only [decRounded, hs, Int.toNat_natCast, if_neg h.not_ge, significand, roundOff]

/-- value(p) = N × 2^(s − fw), the number that step 4 rounds (R85). -/
theorem Fields.value_eq_significand {x : Fields} {s : Nat} (hs : x.scale = s) (h : x.f < 2 ^ x.fw) :
    x.value = significand x * 2 ^ s / 2 ^ x.fw := by
  rw [significand_eq h, Fields.value, hs, scaled, zpow_natCast]
  push_cast
  field_simp

theorem roundsToEvenInt_decRounded {x : Fields} (nonneg : 0 ≤ x.scale) (h : x.f < 2 ^ x.fw) :
    RoundsToEvenInt x.value (decRounded x) := by
  obtain ⟨s, hs⟩ := Int.eq_ofNat_of_zero_le nonneg
  rw [Fields.value_eq_significand hs h]
  obtain integer | cut := le_or_gt x.fw s
  · have exact : (significand x : Rat) * 2 ^ s / 2 ^ x.fw = (significand x * 2 ^ (s - x.fw) : Nat) := by
      rw [Nat.cast_mul, Nat.cast_pow, Nat.cast_two, pow_sub₀ _ two_ne_zero integer, mul_div_assoc, div_eq_mul_inv]
    rw [decRounded_of_le hs integer, exact]
    exact roundsToEvenInt_natCast _
  · have shifted : (significand x : Rat) * 2 ^ s / 2 ^ x.fw = significand x / 2 ^ (x.fw - s) := by
      rw [pow_sub₀ _ two_ne_zero cut.le]
      field_simp
    rw [decRounded_of_gt hs cut, shifted]
    exact roundsToEvenInt_roundOff _ _

/-! ### The four steps on the pattern read as a number -/

section
variable {p : Pattern}

theorem decMag_of_step1 (h : p.toNat ≤ 0x3000) : decMag p = 0 := if_pos h

theorem decMag_of_step2 (lo : 0x3000 < p.toNat) (hi : p.toNat < 0x4800) : decMag p = 1 :=
  (if_neg lo.not_ge).trans (if_pos hi)

theorem decMag_of_step3 (lo : 0x4800 ≤ p.toNat) (hi : p.toNat ≤ 0x5400) : decMag p = 2 := by
  have above : 0x3000 < p.toNat := by omega
  exact (if_neg above.not_ge).trans ((if_neg lo.not_gt).trans (if_pos hi))

theorem decMag_of_step4 (lo : 0x5400 < p.toNat) : decMag p = decRounded (fields p) := by
  have above2 : 0x4800 ≤ p.toNat := by omega
  have above1 : 0x3000 < p.toNat := by omega
  exact (if_neg above1.not_ge).trans ((if_neg above2.not_gt).trans (if_neg lo.not_ge))

theorem value_eq_signedValue_toNat (h : p.toNat ≤ 0x7FFF) : value p = some (signedValue p.toNat) := by
  have number : p ≠ NAR := by
    rintro rfl
    exact absurd h (by decide)
  rw [value_eq_signedValue number, BitVec.toInt_eq_toNat_of_lt (by omega)]

theorem signedValue_mono {m n : Nat} (h : m ≤ n) (bound : n ≤ 0x7FFF) : signedValue m ≤ signedValue n :=
  signedValue_le (by omega) (by exact_mod_cast h) (by omega)

theorem signedValue_strictMono {m n : Nat} (h : m < n) (bound : n ≤ 0x7FFF) : signedValue m < signedValue n :=
  signedValue_lt (by omega) (by exact_mod_cast h) (by omega)

end

/-! ### The ties between the steps -/

theorem value_0x3000 : value 0x3000#16 = some (1 / 2) := by
  rw [value_of_fields (x := { k := -1, e := 1, f := 0, fw := 12 }) (by decide) (by decide)]
  norm_num [Fields.value, Fields.scale, scaled]

theorem value_0x4800 : value 0x4800#16 = some (3 / 2) := by
  rw [value_of_fields (x := { k := 0, e := 0, f := 0x800, fw := 12 }) (by decide) (by decide)]
  norm_num [Fields.value, Fields.scale, scaled]

theorem value_0x5400 : value 0x5400#16 = some (5 / 2) := by
  rw [value_of_fields (x := { k := 0, e := 1, f := 0x400, fw := 12 }) (by decide) (by decide)]
  norm_num [Fields.value, Fields.scale, scaled]

/-- A known value of a pattern up to 0x7FFF is the `signedValue` of its number. -/
theorem signedValue_of_value {p : Pattern} {x : Rat} (h : p.toNat ≤ 0x7FFF) (hx : value p = some x) :
    signedValue p.toNat = x :=
  Option.some.inj ((value_eq_signedValue_toNat h).symm.trans hx)

theorem signedValue_0x3000 : signedValue (0x3000 : Nat) = 1 / 2 := signedValue_of_value (p := 0x3000#16) (by decide) value_0x3000
theorem signedValue_0x4800 : signedValue (0x4800 : Nat) = 3 / 2 := signedValue_of_value (p := 0x4800#16) (by decide) value_0x4800
theorem signedValue_0x5400 : signedValue (0x5400 : Nat) = 5 / 2 := signedValue_of_value (p := 0x5400#16) (by decide) value_0x5400

/-- A value of 1 or more has no negative scale. -/
theorem scale_nonneg {p : Pattern} (h : 1 ≤ (fields p).value) : 0 ≤ (fields p).scale := by
  have below := scaled_lt (fields p).scale (fields_f_lt p)
  have power : (2 : Rat) ^ (0 : Int) < 2 ^ ((fields p).scale + 1) := by
    rw [zpow_zero]
    exact h.trans_lt below
  have := (zpow_lt_zpow_iff_right₀ (by norm_num)).mp power
  omega

/-- R88: steps 1 to 3 answer what rounding gives between their ties, and step 4 rounds. -/
theorem roundsToEvenInt_decMag {p : Pattern} (h : p.toNat ≤ 0x7FFF) : RoundsToEvenInt (signedValue p.toNat) (decMag p) := by
  obtain step1 | above1 := le_or_gt p.toNat 0x3000
  · have lo : 0 ≤ signedValue p.toNat := signedValue_zero.symm.trans_le (signedValue_mono (Nat.zero_le _) h)
    have hi : signedValue p.toNat ≤ 1 / 2 := (signedValue_mono step1 (by decide)).trans_eq signedValue_0x3000
    rw [decMag_of_step1 step1]
    exact roundsToEvenInt_of_le rfl (by norm_num; linarith) (by norm_num; linarith)
  obtain step2 | above2 := lt_or_ge p.toNat 0x4800
  · have lo : 1 / 2 < signedValue p.toNat := signedValue_0x3000.symm.trans_lt (signedValue_strictMono above1 h)
    have hi : signedValue p.toNat < 3 / 2 := (signedValue_strictMono step2 (by decide)).trans_eq signedValue_0x4800
    rw [decMag_of_step2 above1 step2]
    exact roundsToEvenInt_of_lt (by norm_num; linarith) (by norm_num; linarith)
  obtain step3 | above3 := le_or_gt p.toNat 0x5400
  · have lo : 3 / 2 ≤ signedValue p.toNat := signedValue_0x4800.symm.trans_le (signedValue_mono above2 h)
    have hi : signedValue p.toNat ≤ 5 / 2 := (signedValue_mono step3 (by decide)).trans_eq signedValue_0x5400
    rw [decMag_of_step3 above2 step3]
    exact roundsToEvenInt_of_le rfl (by norm_num; linarith) (by norm_num; linarith)
  · have lo : 5 / 2 < signedValue p.toNat := signedValue_0x5400.symm.trans_lt (signedValue_strictMono above3 h)
    have positive := (classify_eq_positive_iff p).mpr ⟨by omega, h⟩
    rw [signedValue_of_value h (value_of_positive positive)] at lo ⊢
    rw [decMag_of_step4 above3]
    exact roundsToEvenInt_decRounded (scale_nonneg (by linarith)) (fields_f_lt p)

/-! ### Order and range (R89) -/

theorem decMag_mono {p q : Pattern} (h : p.toNat ≤ q.toNat) (bound : q.toNat ≤ 0x7FFF) : decMag p ≤ decMag q := by
  have order := (roundsToEvenInt_decMag (h.trans bound)).mono (roundsToEvenInt_decMag bound) (signedValue_mono h bound)
  exact_mod_cast order

theorem decMag_MAX : decMag MAX = 2 ^ 28 := by decide

theorem decMag_le {p : Pattern} (h : p.toNat ≤ 0x7FFF) : decMag p ≤ 2 ^ 28 := by
  rw [← decMag_MAX]
  exact decMag_mono h le_rfl

end Sys2Proof.Machine
end

section
/-! SUPPORT. What the ops DECU32 and DECU64 deliver (R86, R87). -/

namespace Sys2Proof.Machine

/-! ### The unsigned integer of a pattern -/

theorem decUnsigned_of_ge {p : Pattern} (h : 0x8000 ≤ p.toNat) : decUnsigned p = 0 := if_pos h

theorem decUnsigned_of_lt {p : Pattern} (h : p.toNat < 0x8000) : decUnsigned p = decMag p := if_neg h.not_ge

theorem decUnsigned_le (p : Pattern) : decUnsigned p ≤ 2 ^ 28 := by
  obtain below | above := Nat.lt_or_ge p.toNat 0x8000
  · rw [decUnsigned_of_lt below]
    exact decMag_le (Nat.le_of_lt_succ below)
  · rw [decUnsigned_of_ge above]
    exact Nat.zero_le _

/-! ### The results -/

/-- No result is cut off, since none is above 2^28 (R86). -/
theorem resDecU32_toNat (a : Word) : (resDecU32 a).toNat = decUnsigned (a.setWidth 16) := by
  have bound := decUnsigned_le (a.setWidth 16)
  rw [resDecU32, placeU32_toNat, opPattern_eq]
  omega

theorem resDecU64_toNat (a : Word) : (resDecU64 a).toNat = decUnsigned (a.setWidth 16) := by
  have bound := decUnsigned_le (a.setWidth 16)
  rw [resDecU64, placeU64_toNat, opPattern_eq]
  omega

/-- "For every p the two variants give the same integer" (R87). -/
theorem resDecU64_eq_resDecU32 (a : Word) : resDecU64 a = resDecU32 a :=
  BitVec.eq_of_toNat_eq ((resDecU64_toNat a).trans (resDecU32_toNat a).symm)

theorem exec_decU32 (a : Word) (s : State) : exec (.decU32 a) s = .next (s.deliver { y := resDecU32 a, illegal := false }) :=
  exec_of_wf rfl

theorem exec_decU64 (a : Word) (s : State) : exec (.decU64 a) s = exec (.decU32 a) s := by
  rw [exec_of_wf rfl, exec_decU32, resultOf, resDecU64_eq_resDecU32]

/-! ### The result by the operand's low 16 bits -/

section
variable {a : Word}

theorem resDecU32_of_ge (h : 0x8000 ≤ a.toNat % 2 ^ 16) : resDecU32 a = 0#64 := by
  rw [← BitVec.toNat_setWidth] at h
  exact BitVec.eq_of_toNat_eq ((resDecU32_toNat a).trans (decUnsigned_of_ge h))

theorem resDecU32_of_lt (h : a.toNat % 2 ^ 16 < 0x8000) : (resDecU32 a).toNat = decMag (a.setWidth 16) := by
  rw [← BitVec.toNat_setWidth] at h
  rw [resDecU32_toNat, decUnsigned_of_lt h]

theorem resDecU32_of_pattern {n : Nat} (h : a.toNat % 2 ^ 16 = n) : (resDecU32 a).toNat = decUnsigned (BitVec.ofNat 16 n) := by
  have pattern : a.setWidth 16 = BitVec.ofNat 16 n := by
    apply BitVec.eq_of_toNat_eq
    rw [BitVec.toNat_setWidth, BitVec.toNat_ofNat, ← h, Nat.mod_mod]
  rw [resDecU32_toNat, pattern]

end

end Sys2Proof.Machine
end

section
/-! SUPPORT. The statements of the magnitude decoder family O9, O10, O39 and O40. -/

namespace Sys2Proof.Machine

/-- Settles O39: between the ties 1/2, 3/2 and 5/2 steps 1 to 3 answer the nearest integer, and step 4 rounds `N × 2^(s − fw)`. -/
theorem decMagRoundsToEven : Obligations.DecMagRoundsToEven :=
  ⟨fun _ h => ⟨_, value_eq_signedValue_toNat h, roundsToEvenInt_decMag h⟩, value_0x3000, value_0x4800, value_0x5400,
    fun _ => decMag_of_step1, fun _ => decMag_of_step2, fun _ => decMag_of_step3⟩

/-- Settles O40: rounding keeps the order of the values, so that the results at 0x5401, 0x7FFE and 0x7FFF are the bounds. -/
theorem decMagRangeAndOrder : Obligations.DecMagRangeAndOrder := by
  refine ⟨fun _ => decMag_le, fun _ _ => decMag_mono, fun p lo hi => ?_⟩
  have least : decMag 0x5401#16 = 3 := by decide
  have greatest : decMag SECOND_LARGEST = 2 ^ 26 := by decide
  have above : decMag 0x5401#16 ≤ decMag p := decMag_mono lo (by omega)
  have below : decMag p ≤ decMag SECOND_LARGEST := decMag_mono hi (by decide)
  omega

/-- Settles O9: the 32-bit result is `decUnsigned` of the pattern, whose bound 2^28 fits it. -/
theorem decu32Result : Obligations.Decu32Result := by
  refine ⟨decode_append _, fun a s => ⟨resDecU32 a, exec_decU32 a s, resDecU32_of_ge, resDecU32_of_lt, ?_, fun h => ?_, fun h => ?_⟩⟩
  · rw [resDecU32_toNat]
    exact decUnsigned_le _
  · exact (resDecU32_of_pattern h).trans (by decide)
  · exact BitVec.eq_of_toNat_eq ((resDecU32_of_pattern h).trans (by decide))

/-- Settles O10: DECU64 delivers the result of DECU32. -/
theorem decu64Result : Obligations.Decu64Result :=
  ⟨decode_append _, fun a s => ⟨resDecU32 a, (exec_decU64 a s).trans (exec_decU32 a s), resDecU32_of_ge, resDecU32_of_lt,
    exec_decU64 a s, fun h => BitVec.eq_of_toNat_eq ((resDecU32_of_pattern h).trans (by decide))⟩⟩

end Sys2Proof.Machine
end

section
/-! SUPPORT. The signed adapter (R96 to R100): the sign around the two magnitude components, and what the ops ENCI32, ENCI64, DECI32 and
DECI64 deliver. -/

namespace Sys2Proof.Machine

/-! ### The signed encoder -/

section
variable {i : Int}

theorem encSigned_of_lt (h : i < -134217728) : encSigned i = MIN := if_pos h

theorem encSigned_of_nonneg (h : 0 ≤ i) : encSigned i = encMag i.natAbs := by
  have general : -134217728 ≤ i := by omega
  exact (if_neg general.not_gt).trans (if_neg h.not_gt)

theorem neg16_MAX : neg16 MAX = MIN := by decide

theorem encMag_natAbs_of_lt (h : i < -134217728) : encMag i.natAbs = MAX := encMag_of_gt (by omega)

/-- The saturation branch changes no result: below the threshold the magnitude encoder answers MAX, and MIN is its negation (R100). -/
theorem encSigned_of_neg (h : i < 0) : encSigned i = neg16 (encMag i.natAbs) := by
  obtain below | general := lt_or_ge i (-134217728)
  · rw [encSigned_of_lt below, encMag_natAbs_of_lt below, neg16_MAX]
  · exact (if_neg general.not_gt).trans (if_pos h)

end

/-! ### The signed decoder -/

section
variable {p : Pattern}

theorem decSigned_NAR : decSigned NAR = 0 := if_pos rfl

theorem decSigned_of_lt (h : p.toNat < 0x8000) : decSigned p = decMag p :=
  (if_neg (ne_of_apply_ne BitVec.toNat h.ne)).trans (if_neg h.not_gt)

theorem decSigned_of_gt (h : 0x8000 < p.toNat) : decSigned p = -(decMag (neg16 p) : Int) :=
  (if_neg (ne_of_apply_ne BitVec.toNat h.ne')).trans (if_pos h)

/-- R100: negation takes each half of the patterns beside NaR to the other, but for ZERO, which stays. -/
theorem decSigned_neg16 (h : p ≠ NAR) : decSigned (neg16 p) = -decSigned p := by
  have negated := neg16_toNat p
  obtain ⟨zero, -⟩ | ⟨nar, -⟩ | ⟨positive, -⟩ | ⟨negative, -⟩ := classify_cases p
  · obtain rfl : p = ZERO := BitVec.eq_of_toNat_eq zero
    decide
  · exact absurd (BitVec.eq_of_toNat_eq nar) h
  · rw [decSigned_of_gt (by omega), neg16_neg16, decSigned_of_lt (by omega)]
  · rw [decSigned_of_lt (by omega), decSigned_of_gt negative, neg_neg]

theorem decSigned_bounds (p : Pattern) : -2 ^ 28 ≤ decSigned p ∧ decSigned p ≤ 2 ^ 28 := by
  obtain nonneg | nar | negative := Nat.lt_trichotomy p.toNat 0x8000
  · have bound := decMag_le (Nat.le_of_lt_succ nonneg)
    rw [decSigned_of_lt nonneg]
    omega
  · obtain rfl : p = NAR := BitVec.eq_of_toNat_eq nar
    decide
  · have bound : decMag (neg16 p) ≤ 2 ^ 28 := decMag_le (by rw [neg16_toNat]; omega)
    rw [decSigned_of_gt negative]
    omega

end

/-! ### The results -/

/-- Nothing of a signed result is cut off where it fits 32 bits (R98). -/
theorem placeI32_setWidth_toInt {v : Int} (lo : -2 ^ 31 ≤ v) (hi : v < 2 ^ 31) : ((placeI32 v).setWidth 32).toInt = v := by
  rw [placeI32, BitVec.setWidth_setWidth_of_le _ (by decide), BitVec.setWidth_eq]
  exact BitVec.toInt_ofInt_eq_self (by decide) lo hi

theorem resDecI32_setWidth_toInt (a : Word) : ((resDecI32 a).setWidth 32).toInt = decSigned (a.setWidth 16) := by
  obtain ⟨lo, hi⟩ := decSigned_bounds (a.setWidth 16)
  rw [resDecI32, opPattern_eq, placeI32_setWidth_toInt (by omega) (by omega)]

theorem resDecI64_toInt (a : Word) : (resDecI64 a).toInt = decSigned (a.setWidth 16) := by
  obtain ⟨lo, hi⟩ := decSigned_bounds (a.setWidth 16)
  rw [resDecI64, opPattern_eq]
  exact BitVec.toInt_ofInt_eq_self (by decide) (by omega) (by omega)

theorem resDecI32_of_pattern {a : Word} {p : Pattern} (h : a.setWidth 16 = p) : resDecI32 a = placeI32 (decSigned p) := by
  rw [resDecI32, opPattern_eq, h]

theorem resDecI64_of_pattern {a : Word} {p : Pattern} (h : a.setWidth 16 = p) : resDecI64 a = placeI64 (decSigned p) := by
  rw [resDecI64, opPattern_eq, h]

/-! ### The ops -/

section
variable {s : State} (a : Word) (adapter : s.build.hasSignedAdapter = true)
include adapter

theorem exec_encI32 :
    exec (.encI32 a) s = .next (s.deliver { y := placePattern (encSigned (a.setWidth 32).toInt), illegal := false }) := by
  rw [exec_of_wf (i := .encI32 a) adapter, resultOf, resEncI32, opI32_eq]

theorem exec_encI64 :
    exec (.encI64 a) s = .next (s.deliver { y := placePattern (encSigned a.toInt), illegal := false }) := by
  rw [exec_of_wf (i := .encI64 a) adapter, resultOf, resEncI64, opI64_eq]

theorem exec_decI32 : exec (.decI32 a) s = .next (s.deliver { y := resDecI32 a, illegal := false }) := exec_of_wf adapter

theorem exec_decI64 : exec (.decI64 a) s = .next (s.deliver { y := resDecI64 a, illegal := false }) := exec_of_wf adapter

end

end Sys2Proof.Machine
end

section
/-! SUPPORT. The statements of the signed adapter family O11 to O14 and O41. -/

namespace Sys2Proof.Machine

/-- Settles O41: the saturation branch gives the negation of MAX, and decoding reads a negative pattern through its negation. -/
theorem signedAdapterOddSymmetric : Obligations.SignedAdapterOddSymmetric :=
  ⟨fun _ _ => encSigned_of_neg, fun _ _ below => ⟨encMag_natAbs_of_lt below, encSigned_of_lt below⟩, fun _ => decSigned_neg16⟩

/-- Settles O11: the result is `encSigned` of the low 32 bits read as a signed integer, whose corner cases are computed. -/
theorem enci32Result : Obligations.Enci32Result := by
  refine ⟨decode_append _, fun a s adapter => ⟨encSigned (a.setWidth 32).toInt, exec_encI32 a adapter, ?_⟩⟩
  generalize (a.setWidth 32).toInt = i
  refine ⟨encSigned_of_lt, fun _ => encSigned_of_neg, encSigned_of_nonneg, ?_⟩
  and_intros <;> rintro rfl <;> decide

/-- Settles O12: as O11 on the whole operand. -/
theorem enci64Result : Obligations.Enci64Result := by
  refine ⟨decode_append _, fun a s adapter => ⟨encSigned a.toInt, exec_encI64 a adapter, ?_⟩⟩
  generalize a.toInt = i
  refine ⟨encSigned_of_lt, fun _ => encSigned_of_neg, encSigned_of_nonneg, ?_⟩
  and_intros <;> rintro rfl <;> decide

/-- Settles O13: the low 32 bits read as `decSigned` of the pattern, whose bounds fit them. -/
theorem deci32Result : Obligations.Deci32Result := by
  refine ⟨decode_append _, fun a s adapter => ⟨resDecI32 a, exec_decI32 a adapter, placeI32_lt _, ?_⟩⟩
  obtain ⟨lo, hi⟩ := decSigned_bounds (a.setWidth 16)
  rw [resDecI32_setWidth_toInt]
  refine ⟨fun nar => nar ▸ decSigned_NAR, decSigned_of_gt, decSigned_of_lt, lo, hi, fun h => ?_, fun h => ?_, fun h => ?_, fun h => ?_⟩
  · exact (resDecI32_of_pattern h).trans (by decide)
  · exact (resDecI32_of_pattern h).trans (by decide)
  · rw [h]
    decide
  · exact (resDecI32_of_pattern h).trans (by decide)

/-- Settles O14: the 64 bits read as `decSigned` of the pattern. -/
theorem deci64Result : Obligations.Deci64Result := by
  refine ⟨decode_append _, fun a s adapter => ⟨resDecI64 a, exec_decI64 a adapter, fun h => ?_, ?_, ?_, fun h => ?_, fun h => ?_⟩⟩
  · exact (resDecI64_of_pattern h).trans (by decide)
  · rw [resDecI64_toInt]
    exact decSigned_of_gt
  · rw [resDecI64_toInt]
    exact decSigned_of_lt
  · exact (resDecI64_of_pattern h).trans (by decide)
  · exact (resDecI64_of_pattern h).trans (by decide)

end Sys2Proof.Machine
end

section
/-! SUPPORT. The value of a float's magnitude bits (R105): a strictly increasing function of them, whose values at the constants of
R106 are the powers of two that they are named after. -/

namespace Sys2Proof.Machine

/-- What the two float widths have in common (R105, R106): the exponent and mantissa fields fill the bits below the sign, each constant
is a power of two, written by its exponent field alone, and the mantissa field is wider than any posit16 fraction. -/
structure FloatFormat.Standard (F : FloatFormat) : Prop where
  width : F.w = F.mw + F.ew + 1
  inf_eq : F.inf = 2 ^ F.mw * (2 ^ F.ew - 1)
  one_eq : F.one = 2 ^ F.mw * F.bias
  tmax_eq : F.tmax = 2 ^ F.mw * (F.bias + 28)
  tmin_eq : F.tmin = 2 ^ F.mw * (F.bias - 28)
  bias_lo : 28 < F.bias
  bias_hi : F.bias + 28 < 2 ^ F.ew - 1
  fraction_fits : 16 ≤ F.mw

theorem binary32_standard : binary32.Standard := by constructor <;> decide
theorem binary64_standard : binary64.Standard := by constructor <;> decide

theorem FloatFormat.standard_of_width {F : FloatFormat} (h : F = binary32 ∨ F = binary64) : F.Standard := by
  obtain rfl | rfl := h
  · exact binary32_standard
  · exact binary64_standard

/-- The real number of the magnitude bits `m`, by their exponent and mantissa fields (R105); meant for `m` below INF. -/
def FloatFormat.magValue (F : FloatFormat) (m : Nat) : Rat :=
  if m / 2 ^ F.mw = 0 then (2 : Rat) ^ (1 - (F.bias : Int)) * (((m % 2 ^ F.mw : Nat) : Rat) / 2 ^ F.mw)
  else scaled ((m / 2 ^ F.mw : Nat) - F.bias) (m % 2 ^ F.mw) F.mw

namespace FloatFormat
variable {F : FloatFormat} {b m n : Nat}

/-! ### The magnitude bits -/

theorem magValue_subnormal (h : m / 2 ^ F.mw = 0) :
    F.magValue m = (2 : Rat) ^ (1 - (F.bias : Int)) * (((m % 2 ^ F.mw : Nat) : Rat) / 2 ^ F.mw) := if_pos h

theorem magValue_normal (h : m / 2 ^ F.mw ≠ 0) :
    F.magValue m = scaled ((m / 2 ^ F.mw : Nat) - F.bias) (m % 2 ^ F.mw) F.mw := if_neg h

/-- Every subnormal number is below the least normal one. -/
theorem magValue_subnormal_lt (h : m / 2 ^ F.mw = 0) : F.magValue m < (2 : Rat) ^ (1 - (F.bias : Int)) := by
  have fraction : ((m % 2 ^ F.mw : Nat) : Rat) / 2 ^ F.mw < 1 :=
    (div_lt_one (by positivity)).mpr (by exact_mod_cast Nat.mod_lt m (Nat.two_pow_pos F.mw))
  rw [magValue_subnormal h]
  exact mul_lt_of_lt_one_right (by positivity) fraction

theorem le_magValue_normal (h : m / 2 ^ F.mw ≠ 0) : (2 : Rat) ^ (1 - (F.bias : Int)) ≤ F.magValue m := by
  rw [magValue_normal h]
  have exponent : (1 : Int) ≤ (m / 2 ^ F.mw : Nat) := by exact_mod_cast Nat.one_le_iff_ne_zero.mpr h
  exact (zpow_le_zpow_right₀ (by decide) (sub_le_sub_right exponent _)).trans (le_scaled _ _ _)

/-- R105: the magnitude bits are in the order of the numbers they stand for. -/
theorem magValue_strictMono (F : FloatFormat) : StrictMono F.magValue := by
  intro m n h
  have exponents : m / 2 ^ F.mw ≤ n / 2 ^ F.mw := Nat.div_le_div_right h.le
  by_cases hm : m / 2 ^ F.mw = 0 <;> by_cases hn : n / 2 ^ F.mw = 0
  · have fractions : m % 2 ^ F.mw < n % 2 ^ F.mw := by
      have := Nat.div_add_mod m (2 ^ F.mw)
      have := Nat.div_add_mod n (2 ^ F.mw)
      rw [hm] at *
      rw [hn] at *
      omega
    rw [magValue_subnormal hm, magValue_subnormal hn]
    gcongr
  · exact (magValue_subnormal_lt hm).trans_le (le_magValue_normal hn)
  · exact absurd (Nat.le_zero.mp (exponents.trans_eq hn)) hm
  · have order := scaled_divMod_lt (-F.bias) F.mw h
    rwa [neg_add_eq_sub, neg_add_eq_sub, ← magValue_normal hm, ← magValue_normal hn] at order

@[simp] theorem magValue_zero (F : FloatFormat) : F.magValue 0 = 0 := by simp [magValue]

theorem magValue_nonneg (m : Nat) : 0 ≤ F.magValue m := by
  rw [← F.magValue_zero]
  exact F.magValue_strictMono.monotone (Nat.zero_le m)

theorem magValue_pos_iff : 0 < F.magValue m ↔ 0 < m := by
  rw [← F.magValue_strictMono.lt_iff_lt, magValue_zero]

/-- A float whose mantissa field is 0 is a power of two. -/
theorem magValue_two_pow {X : Nat} (h : X ≠ 0) : F.magValue (2 ^ F.mw * X) = (2 : Rat) ^ ((X : Int) - F.bias) := by
  have exponent : 2 ^ F.mw * X / 2 ^ F.mw = X := Nat.mul_div_cancel_left X (Nat.two_pow_pos F.mw)
  rw [magValue_normal (by rwa [exponent]), exponent, Nat.mul_mod_right]
  simp [scaled]

/-! ### The fields of a float -/

namespace Standard
variable (hF : F.Standard)
include hF

theorem sign_index : F.w - 1 = F.mw + F.ew := by rw [hF.width, Nat.add_sub_cancel]

theorem magValue_one : F.magValue F.one = 1 := by
  have := hF.bias_lo
  rw [hF.one_eq, magValue_two_pow (by omega), sub_self, zpow_zero]

theorem magValue_tmax : F.magValue F.tmax = 2 ^ 28 := by
  rw [hF.tmax_eq, magValue_two_pow (by omega), Nat.cast_add, add_sub_cancel_left]
  rfl

theorem magValue_tmin : F.magValue F.tmin = 1 / 2 ^ 28 := by
  have lo := hF.bias_lo
  have scale : ((F.bias - 28 : Nat) : Int) - F.bias = -28 := by omega
  rw [hF.tmin_eq, magValue_two_pow (by omega), scale]
  norm_num

/-- INF has the sign bit clear, and so has every positive float. -/
theorem inf_lt_sign : F.inf < 2 ^ (F.w - 1) := by
  rw [hF.inf_eq, hF.sign_index, pow_add]
  exact Nat.mul_lt_mul_of_pos_left (Nat.sub_lt (Nat.two_pow_pos _) one_pos) (Nat.two_pow_pos _)

theorem tmax_lt_inf : F.tmax < F.inf := by
  rw [hF.tmax_eq, hF.inf_eq]
  exact Nat.mul_lt_mul_of_pos_left hF.bias_hi (Nat.two_pow_pos F.mw)

theorem tmin_lt_one : F.tmin < F.one := by
  have := hF.bias_lo
  rw [hF.tmin_eq, hF.one_eq]
  exact Nat.mul_lt_mul_of_pos_left (by omega) (Nat.two_pow_pos F.mw)

theorem one_lt_tmax : F.one < F.tmax := by
  rw [hF.one_eq, hF.tmax_eq]
  exact Nat.mul_lt_mul_of_pos_left (by omega) (Nat.two_pow_pos F.mw)

theorem mantField_eq (b : Nat) : F.mantField b = F.mag b % 2 ^ F.mw := by
  rw [mantField, mag, hF.sign_index, Nat.mod_mod_of_dvd _ (pow_dvd_pow 2 (Nat.le_add_right _ _))]

theorem expField_lt (b : Nat) : F.expField b < 2 ^ F.ew := by
  rw [expField, mag, hF.sign_index, Nat.div_lt_iff_lt_mul (Nat.two_pow_pos _), ← pow_add, add_comm]
  exact Nat.mod_lt _ (Nat.two_pow_pos _)

/-- INF parts the exponent field of all ones from the others. -/
theorem inf_le_mag_iff (b : Nat) : F.inf ≤ F.mag b ↔ F.expField b = 2 ^ F.ew - 1 := by
  have bound := hF.expField_lt b
  rw [hF.inf_eq, mul_comm, ← Nat.le_div_iff_mul_le (Nat.two_pow_pos _), ← expField]
  omega

/-- R105: below INF a float is finite. -/
theorem value_of_mag_lt_inf (h : F.mag b < F.inf) : F.value b = .finite (withSign (F.sign b) (F.magValue (F.mag b))) := by
  have finite : F.expField b ≠ 2 ^ F.ew - 1 := fun ones => ((hF.inf_le_mag_iff b).mpr ones).not_gt h
  simp only [value, if_neg finite, hF.mantField_eq]
  split
  case isTrue subnormal => rw [magValue_subnormal subnormal]
  case isFalse normal =>
    rw [magValue_normal normal]
    rfl

theorem value_of_mag_eq_inf (h : F.mag b = F.inf) : F.value b = .infinity (F.sign b) := by
  have ones := (hF.inf_le_mag_iff b).mp h.ge
  have mantissa : F.mantField b = 0 := by rw [hF.mantField_eq, h, hF.inf_eq, Nat.mul_mod_right]
  simp only [value, if_pos ones, if_pos mantissa]

/-- R105: a finite float is below INF. -/
theorem mag_lt_inf_of_finite {x : Rat} (h : F.value b = .finite x) : F.mag b < F.inf := by
  by_contra! above
  simp only [value, if_pos ((hF.inf_le_mag_iff b).mp above)] at h
  split at h <;> cases h

theorem le_magValue_iff_tmax_le : 2 ^ 28 ≤ F.magValue m ↔ F.tmax ≤ m := by
  rw [← hF.magValue_tmax, F.magValue_strictMono.le_iff_le]

theorem magValue_le_iff_le_tmin : F.magValue m ≤ 1 / 2 ^ 28 ↔ m ≤ F.tmin := by
  rw [← hF.magValue_tmin, F.magValue_strictMono.le_iff_le]

/-! ### Positive floats -/

theorem sign_mag_of_le_inf (h : b ≤ F.inf) : F.sign b = false ∧ F.mag b = b := by
  have below_sign := h.trans_lt hF.inf_lt_sign
  exact ⟨Nat.testBit_lt_two_pow below_sign, Nat.mod_eq_of_lt below_sign⟩

theorem value_of_lt_inf (h : b < F.inf) : F.value b = .finite (F.magValue b) := by
  obtain ⟨sign, mag⟩ := hF.sign_mag_of_le_inf h.le
  rw [hF.value_of_mag_lt_inf (by rwa [mag]), sign, mag, withSign, if_neg Bool.false_ne_true]

theorem value_one : F.value F.one = .finite 1 := by
  rw [hF.value_of_lt_inf (hF.one_lt_tmax.trans hF.tmax_lt_inf), hF.magValue_one]

theorem value_tmax : F.value F.tmax = .finite (2 ^ 28) := by
  rw [hF.value_of_lt_inf hF.tmax_lt_inf, hF.magValue_tmax]

theorem value_tmin : F.value F.tmin = .finite (1 / 2 ^ 28) := by
  rw [hF.value_of_lt_inf (hF.tmin_lt_one.trans (hF.one_lt_tmax.trans hF.tmax_lt_inf)), hF.magValue_tmin]

theorem value_inf : F.value F.inf = .infinity false := by
  obtain ⟨sign, mag⟩ := hF.sign_mag_of_le_inf le_rfl
  rw [hF.value_of_mag_eq_inf mag, sign]

end Standard

end FloatFormat

end Sys2Proof.Machine
end

section
/-! SUPPORT. The float encoder (R107) as a sign around an encoder of the magnitude bits, which gives the posit rounding of their value
(R110): the classification steps answer what rounding gives, by the order of rounded numbers. -/

namespace Sys2Proof.Machine

/-! ### Rounding to a posit, once more -/

/-- A number rounds to one pattern only. -/
theorem RoundsToPosit.unique {x : Rat} {p q : Pattern} (hp : RoundsToPosit x p) (hq : RoundsToPosit x q) : q = p :=
  hp.eq_of_between hp hq le_rfl le_rfl

/-- Below MIN_POSITIVE there is no boundary (R110). -/
theorem RoundsToPosit.min_of_le {x y : Rat} (hy : RoundsToPosit y MIN_POSITIVE) (h : x ≤ y) : RoundsToPosit x MIN_POSITIVE := by
  obtain ⟨positive, bound, -, upper⟩ := hy
  refine ⟨positive, bound, .inl rfl, .inr (.inl ?_)⟩
  obtain greatest | below | ⟨-, even⟩ := upper
  · exact absurd greatest (by decide)
  · exact h.trans_lt below
  · exact absurd even (by decide)

/-- A pattern is the rounding of its own value, the value of the 17-bit pattern halfway between its two boundaries. -/
theorem roundsToPosit_value {p : Pattern} {x : Rat} (positive : classify p = .positive) (hx : value p = some x) :
    RoundsToPosit x p := by
  obtain ⟨lo, hi⟩ := (classify_eq_positive_iff p).mp positive
  have middle : value17 (p.toNat * 2) = x :=
    (fieldsFrom_mul_two_pow_value 1 lo (by omega)).trans (Option.some.inj ((value_of_positive positive).symm.trans hx))
  rw [← middle]
  exact ⟨lo, hi, .inr (.inl (value17_lt (by omega) (by omega) (by omega))),
    .inr (.inl (value17_lt (by omega) (by omega) (by omega)))⟩

theorem roundsToPosit_ONE : RoundsToPosit 1 ONE := roundsToPosit_value (by decide) value_ONE
theorem roundsToPosit_MAX : RoundsToPosit (2 ^ 28) MAX := roundsToPosit_value (by decide) value_MAX
theorem roundsToPosit_MIN_POSITIVE : RoundsToPosit (1 / 2 ^ 28) MIN_POSITIVE := roundsToPosit_value (by decide) value_MIN_POSITIVE

/-! ### The encoder of the magnitude bits -/

/-- R107 on the magnitude bits of a finite float. -/
def encFloatMag (F : FloatFormat) (m : Nat) : Pattern :=
  if m = 0 then ZERO
  else if F.tmax ≤ m then MAX
  else if m = F.one then ONE
  else if m ≤ F.tmin then MIN_POSITIVE
  else assemble ((m / 2 ^ F.mw : Nat) - F.bias) (m % 2 ^ F.mw) F.mw

section
variable {F : FloatFormat} {m : Nat}

theorem encFloatMag_zero (F : FloatFormat) : encFloatMag F 0 = ZERO := if_pos rfl

theorem encFloatMag_of_tmax_le (pos : 0 < m) (h : F.tmax ≤ m) : encFloatMag F m = MAX := by
  rw [encFloatMag, if_neg pos.ne', if_pos h]

namespace FloatFormat.Standard
variable (hF : F.Standard)
include hF

theorem encFloatMag_of_le_tmin (pos : 0 < m) (h : m ≤ F.tmin) : encFloatMag F m = MIN_POSITIVE := by
  have below_one := h.trans_lt hF.tmin_lt_one
  rw [encFloatMag, if_neg pos.ne', if_neg (below_one.trans hF.one_lt_tmax).not_ge, if_neg below_one.ne, if_pos h]

/-- Between TMIN and TMAX the scale is one that `assemble` is meant for. -/
theorem roundsToPosit_general (lo : F.tmin < m) (hi : m < F.tmax) :
    RoundsToPosit (F.magValue m) (assemble ((m / 2 ^ F.mw : Nat) - F.bias) (m % 2 ^ F.mw) F.mw) := by
  have bias := hF.bias_lo
  have least : F.bias - 28 ≤ m / 2 ^ F.mw := by
    rw [Nat.le_div_iff_mul_le (Nat.two_pow_pos _), mul_comm, ← hF.tmin_eq]
    exact lo.le
  have greatest : m / 2 ^ F.mw < F.bias + 28 := by
    rwa [Nat.div_lt_iff_lt_mul (Nat.two_pow_pos _), mul_comm, ← hF.tmax_eq]
  rw [magValue_normal (by omega)]
  generalize m / 2 ^ F.mw = X at least greatest
  exact roundsToPosit_assemble (by omega) (by omega) (Nat.mod_lt _ (Nat.two_pow_pos _))

/-- R110: the encoder of the magnitude bits rounds their value. -/
theorem roundsToPosit_encFloatMag (pos : 0 < m) : RoundsToPosit (F.magValue m) (encFloatMag F m) := by
  obtain above | below := le_or_gt F.tmax m
  · rw [encFloatMag_of_tmax_le pos above]
    exact roundsToPosit_MAX.max_of_le (hF.le_magValue_iff_tmax_le.mpr above)
  obtain tiny | general := le_or_gt m F.tmin
  · rw [hF.encFloatMag_of_le_tmin pos tiny]
    exact roundsToPosit_MIN_POSITIVE.min_of_le (hF.magValue_le_iff_le_tmin.mpr tiny)
  rw [encFloatMag, if_neg pos.ne', if_neg below.not_ge]
  split
  case isTrue one =>
    rw [one, hF.magValue_one]
    exact roundsToPosit_ONE
  case isFalse =>
    rw [if_neg general.not_ge]
    exact hF.roundsToPosit_general general below

/-! ### The sign -/

/-- R107: infinities and NaNs give NaR, of either sign. -/
theorem encFloat_of_inf_le {b : Nat} (h : F.inf ≤ F.mag b) : encFloat F b = NAR := by
  have positive : F.mag b ≠ 0 := ((Nat.zero_le _).trans_lt (hF.tmax_lt_inf.trans_le h)).ne'
  exact (if_neg positive).trans (if_pos h)

/-- R107: below INF the float encoder is the encoder of the magnitude bits with the sign reinstated, since `neg16` keeps ZERO and takes
MAX to MIN. -/
theorem encFloat_of_lt_inf {b : Nat} (h : F.mag b < F.inf) :
    encFloat F b = if F.sign b then neg16 (encFloatMag F (F.mag b)) else encFloatMag F (F.mag b) := by
  have zero : neg16 ZERO = ZERO := by decide
  simp only [encFloat, encFloatMag, if_neg h.not_ge, hF.mantField_eq, expField, ← neg16_MAX, apply_ite neg16, zero]
  split <;> split_ifs <;> rfl

end FloatFormat.Standard

end

end Sys2Proof.Machine
end

section
/-! SUPPORT. The float decoder (R114) as a sign above magnitude bits whose value is that of the pattern (R117), which the float encoder
therefore rounds back to the pattern (R110). -/

namespace Sys2Proof.Machine

/-! ### The sign of a pattern -/

theorem signBit_eq (p : Pattern) : signBit p = decide (0x8000 ≤ p.toNat) := BitVec.msb_eq_decide p

theorem classify_magnitude {p : Pattern} (zero : p ≠ ZERO) (nar : p ≠ NAR) : classify (magnitude p) = .positive := by
  have zero : p.toNat ≠ 0 := fun eq => zero (BitVec.eq_of_toNat_eq eq)
  have nar : p.toNat ≠ 0x8000 := fun eq => nar (BitVec.eq_of_toNat_eq eq)
  have bound := p.isLt
  simp only [classify_eq_positive_iff, magnitude, signBit_eq, decide_eq_true_eq]
  split
  · rw [neg16_toNat]
    omega
  · omega

/-- The sign and the magnitude of a pattern make up the pattern. -/
theorem sign_magnitude (p : Pattern) : (if signBit p then neg16 (magnitude p) else magnitude p) = p := by
  unfold magnitude
  split
  · exact neg16_neg16 p
  · rfl

/-! ### The magnitude bits that the decoder puts together -/

/-- The exponent and mantissa fields of R114 as one number, for a positive pattern. -/
def decFloatMag (F : FloatFormat) (q : Pattern) : Nat :=
  2 ^ F.mw * ((fields q).scale + F.bias).toNat + (fields q).f * 2 ^ (F.mw - (fields q).fw)

section
variable {F : FloatFormat} {p q : Pattern} (hF : F.Standard)

theorem scale_bounds (h : classify q = .positive) : -28 ≤ (fields q).scale ∧ (fields q).scale ≤ 28 := by
  obtain ⟨lo, hi⟩ := (classify_eq_positive_iff q).mp h
  obtain ⟨least, greatest, -, -⟩ := (scalesTaken (fields q).scale).mp ⟨q, lo, hi, rfl⟩
  exact ⟨least, greatest⟩

include hF
namespace FloatFormat.Standard

theorem fraction_width (q : Pattern) : (fields q).fw + (F.mw - (fields q).fw) = F.mw := by
  have := fields_fw_lt q
  have := hF.fraction_fits
  omega

theorem mantissa_lt (q : Pattern) : (fields q).f * 2 ^ (F.mw - (fields q).fw) < 2 ^ F.mw := by
  conv_rhs => rw [← hF.fraction_width q, pow_add]
  exact Nat.mul_lt_mul_of_pos_right (fields_f_lt q) (Nat.two_pow_pos _)

/-- R117: the exponent is that of a normal number, and the fraction is kept whole. -/
theorem magValue_decFloatMag (h : classify q = .positive) : F.magValue (decFloatMag F q) = (fields q).value := by
  obtain ⟨lo, hi⟩ := scale_bounds h
  have bias := hF.bias_lo
  have fraction := hF.mantissa_lt q
  have exponent : decFloatMag F q / 2 ^ F.mw = ((fields q).scale + F.bias).toNat := by
    rw [decFloatMag, Nat.mul_add_div (Nat.two_pow_pos _), Nat.div_eq_of_lt fraction, Nat.add_zero]
  have mantissa : decFloatMag F q % 2 ^ F.mw = (fields q).f * 2 ^ (F.mw - (fields q).fw) := by
    rw [decFloatMag, Nat.mul_add_mod, Nat.mod_eq_of_lt fraction]
  have scale : ((((fields q).scale + F.bias).toNat : Nat) : Int) - F.bias = (fields q).scale := by omega
  have width := scaled_mul_two_pow (fields q).scale (fields q).f (fields q).fw (F.mw - (fields q).fw)
  rw [hF.fraction_width q] at width
  rw [magValue_normal (by omega), exponent, mantissa, scale, width, Fields.value]

theorem decFloatMag_lt_inf (h : classify q = .positive) : decFloatMag F q < F.inf := by
  obtain ⟨lo, hi⟩ := scale_bounds h
  have bias := hF.bias_hi
  have next : ((fields q).scale + F.bias).toNat + 1 ≤ 2 ^ F.ew - 1 := by omega
  calc decFloatMag F q < 2 ^ F.mw * (((fields q).scale + F.bias).toNat + 1) := Nat.add_lt_add_left (hF.mantissa_lt q) _
    _ ≤ F.inf := by rw [hF.inf_eq]; exact Nat.mul_le_mul_left _ next

/-- R110, R117: the encoder rounds the exact value of the pattern, which is the pattern. -/
theorem encFloatMag_decFloatMag (h : classify q = .positive) : encFloatMag F (decFloatMag F q) = q := by
  have exact := hF.magValue_decFloatMag h
  have positive : 0 < decFloatMag F q := by
    rw [← magValue_pos_iff (F := F), exact]
    exact scaled_pos _ _ _
  have rounds := hF.roundsToPosit_encFloatMag positive
  rw [exact] at rounds
  exact (roundsToPosit_value h (value_of_positive h)).unique rounds

/-! ### The decoder -/

section
variable (nan : Nat) (zero : p ≠ ZERO) (nar : p ≠ NAR)
include zero nar

theorem decFloatMag_lt_sign : decFloatMag F (magnitude p) < 2 ^ (F.w - 1) :=
  (hF.decFloatMag_lt_inf (classify_magnitude zero nar)).trans hF.inf_lt_sign

/-- R114: the three fields lie beside one another. -/
theorem decFloat_eq : decFloat F nan p = 2 ^ (F.w - 1) * (signBit p).toNat + decFloatMag F (magnitude p) := by
  rw [decFloat, if_neg zero, if_neg nar]
  dsimp only
  rw [Nat.shiftLeft_eq, Nat.shiftLeft_eq, Nat.shiftLeft_eq, Nat.or_assoc, mul_comm _ (2 ^ F.mw),
    ← Nat.two_pow_add_eq_or_of_lt (hF.mantissa_lt _), ← decFloatMag, mul_comm _ (2 ^ (F.w - 1)),
    ← Nat.two_pow_add_eq_or_of_lt (hF.decFloatMag_lt_sign zero nar)]

/-- What the encoder reads of a decoded pattern. -/
theorem sign_mag_decFloat :
    F.sign (decFloat F nan p) = signBit p ∧ F.mag (decFloat F nan p) = decFloatMag F (magnitude p) := by
  have below_sign := hF.decFloatMag_lt_sign zero nar
  rw [hF.decFloat_eq nan zero nar, sign, mag, Nat.testBit_two_pow_mul_add _ below_sign, if_neg (lt_irrefl _), Nat.sub_self,
    Nat.mul_add_mod, Nat.mod_eq_of_lt below_sign]
  exact ⟨by cases signBit p <;> rfl, rfl⟩

end

theorem decFloat_lt {nan : Nat} (hnan : nan < 2 ^ F.w) (p : Pattern) : decFloat F nan p < 2 ^ F.w := by
  by_cases zero : p = ZERO
  · rw [decFloat, if_pos zero]
    exact Nat.two_pow_pos _
  by_cases nar : p = NAR
  · rwa [decFloat, if_neg zero, if_pos nar]
  have below_sign := hF.decFloatMag_lt_sign zero nar
  have one_bit : 2 ^ (F.w - 1) * (signBit p).toNat ≤ 2 ^ (F.w - 1) * 1 := Nat.mul_le_mul_left _ (Bool.toNat_le _)
  have width : 2 ^ F.w = 2 ^ (F.w - 1) * 2 := by rw [← pow_succ, hF.sign_index, hF.width]
  rw [hF.decFloat_eq nan zero nar, width]
  omega

/-- R110: the encoder takes every decoded pattern back, NaR where it takes the build's NaN for NaR. -/
theorem encFloat_decFloat {nan : Nat} (hnan : encFloat F nan = NAR) (p : Pattern) : encFloat F (decFloat F nan p) = p := by
  by_cases zero : p = ZERO
  · rw [decFloat, if_pos zero, zero, encFloat, FloatFormat.mag, Nat.zero_mod, if_pos rfl]
  by_cases nar : p = NAR
  · rw [decFloat, if_neg zero, if_pos nar, hnan, nar]
  have positive := classify_magnitude zero nar
  obtain ⟨sign, mag⟩ := hF.sign_mag_decFloat nan zero nar
  rw [hF.encFloat_of_lt_inf (mag ▸ hF.decFloatMag_lt_inf positive), sign, mag, hF.encFloatMag_decFloatMag positive, sign_magnitude]

end FloatFormat.Standard

end

/-! ### The NaN of a build (R6) -/

theorem encFloat_nanF32 {b : Build} (h : b.wf = true) : encFloat binary32 b.nanF32.toNat = NAR := by
  obtain ⟨⟨ones, -⟩, -⟩ : (b.nanF32.extractLsb' 23 8 = 0xFF#8 ∧ _) ∧ _ := by
    simpa only [Build.wf, isNaN32, Bool.and_eq_true, beq_iff_eq] using h
  have exponent : b.nanF32.toNat / 2 ^ 23 % 2 ^ 8 = 0xFF := by
    simpa [Nat.shiftRight_eq_div_pow] using congrArg BitVec.toNat ones
  apply binary32_standard.encFloat_of_inf_le
  show 0x7F800000 ≤ b.nanF32.toNat % 2 ^ 31
  omega

theorem encFloat_nanF64 {b : Build} (h : b.wf = true) : encFloat binary64 b.nanF64.toNat = NAR := by
  obtain ⟨-, ones, -⟩ : _ ∧ b.nanF64.extractLsb' 52 11 = 0x7FF#11 ∧ _ := by
    simpa only [Build.wf, isNaN64, Bool.and_eq_true, beq_iff_eq] using h
  have exponent : b.nanF64.toNat / 2 ^ 52 % 2 ^ 11 = 0x7FF := by
    simpa [Nat.shiftRight_eq_div_pow] using congrArg BitVec.toNat ones
  apply binary64_standard.encFloat_of_inf_le
  show 0x7FF0000000000000 ≤ b.nanF64.toNat % 2 ^ 63
  omega

/-! ### The ops -/

theorem exec_encF32 (a : Word) (s : State) :
    exec (.encF32 a) s = .next (s.deliver { y := placePattern (encFloat binary32 (a.toNat % 2 ^ 32)), illegal := false }) := by
  rw [exec_of_wf rfl, resultOf, resEncF32, opU32_eq]

theorem exec_encF64 (a : Word) (s : State) :
    exec (.encF64 a) s = .next (s.deliver { y := placePattern (encFloat binary64 a.toNat), illegal := false }) := by
  rw [exec_of_wf rfl, resultOf, resEncF64, opU64_eq]

/-- The low 32 bits of `y` are the whole decoded float. -/
theorem opU32_resDecF32 (b : Build) (p : Pattern) :
    opU32 (resDecF32 b (placePattern p)) = decFloat binary32 b.nanF32.toNat p := by
  have fits : decFloat binary32 b.nanF32.toNat p < 2 ^ 32 := binary32_standard.decFloat_lt b.nanF32.isLt p
  rw [opU32_eq, resDecF32, placeU32_toNat, opPattern_placePattern, Nat.mod_mod, Nat.mod_eq_of_lt fits]

theorem opU64_resDecF64 (b : Build) (p : Pattern) :
    opU64 (resDecF64 b (placePattern p)) = decFloat binary64 b.nanF64.toNat p := by
  have fits : decFloat binary64 b.nanF64.toNat p < 2 ^ 64 := binary64_standard.decFloat_lt b.nanF64.isLt p
  rw [opU64_eq, resDecF64, placeU64_toNat, opPattern_placePattern, Nat.mod_eq_of_lt fits]

end Sys2Proof.Machine
end

section
/-! SUPPORT. The statements of the float encoder family O15, O16 and O42 to O44. -/

namespace Sys2Proof.Machine

/-- Settles O43: the encoder of the magnitude bits rounds their value, and the value is in the order of the bits, so that the two
saturating ranges are those of TMAX and TMIN; the sign bit negates both the value and the pattern. -/
theorem encFloatIsPositRounding : Obligations.EncFloatIsPositRounding := by
  intro F b hwidth _ x hx
  have hF := FloatFormat.standard_of_width hwidth
  have finite := hF.mag_lt_inf_of_finite hx
  obtain rfl := FloatValue.finite.inj ((hF.value_of_mag_lt_inf finite).symm.trans hx)
  rw [hF.encFloat_of_lt_inf finite]
  generalize F.mag b = m
  have nonneg := F.magValue_nonneg m
  have pos (h : 0 < F.magValue m) : 0 < m := FloatFormat.magValue_pos_iff.mp h
  have zero (h : F.magValue m = 0) : encFloatMag F m = ZERO := by
    rw [F.magValue_strictMono.injective (h.trans F.magValue_zero.symm), encFloatMag_zero]
  have rounds (h : 0 < F.magValue m) : RoundsToPosit (F.magValue m) (encFloatMag F m) := hF.roundsToPosit_encFloatMag (pos h)
  have greatest (h : 2 ^ 28 ≤ F.magValue m) : encFloatMag F m = MAX :=
    encFloatMag_of_tmax_le (pos (by linarith)) (hF.le_magValue_iff_tmax_le.mp h)
  have least (h : 0 < F.magValue m) (tiny : F.magValue m ≤ 1 / 2 ^ 28) : encFloatMag F m = MIN_POSITIVE :=
    hF.encFloatMag_of_le_tmin (pos h) (hF.magValue_le_iff_le_tmin.mp tiny)
  cases F.sign b with
  | false =>
    rw [if_neg Bool.false_ne_true, withSign, if_neg Bool.false_ne_true]
    exact ⟨zero, rounds, fun negative => by linarith, greatest, fun negative => by linarith, least, fun negative => by linarith⟩
  | true =>
    rw [if_pos rfl, withSign, if_pos rfl, neg_neg, neg16_neg16]
    exact ⟨fun h => by rw [zero (neg_eq_zero.mp h)]; rfl, fun positive => by linarith, fun h => rounds (neg_neg_iff_pos.mp h),
      fun positive => by linarith, fun h => by rw [greatest (neg_le_neg_iff.mp h), neg16_MAX], fun positive => by linarith,
      fun h tiny => by rw [least (neg_neg_iff_pos.mp h) (neg_le_neg_iff.mp tiny)]⟩

/-- Settles O44: the decoder is exact, and rounding takes the value of a pattern to the pattern; the NaNs of the build are above INF. -/
theorem floatRoundTrip : Obligations.FloatRoundTrip := by
  intro b p hwf
  constructor
  · rw [← placePattern, EXEC_of_wf rfl, EXEC_of_wf rfl, resultOf, resultOf, resEncF32, opU32_resDecF32,
      binary32_standard.encFloat_decFloat (encFloat_nanF32 hwf)]
  · rw [← placePattern, EXEC_of_wf rfl, EXEC_of_wf rfl, resultOf, resultOf, resEncF64, opU64_resDecF64,
      binary64_standard.encFloat_decFloat (encFloat_nanF64 hwf)]

/-- Settles O15: the result is `encFloat` of the low 32 bits, whose corner cases are computed. -/
theorem encf32Result : Obligations.Encf32Result :=
  ⟨decode_append _, exec_encF32, by decide⟩

/-- Settles O16: as O15 on the whole operand. -/
theorem encf64Result : Obligations.Encf64Result :=
  ⟨decode_append _, exec_encF64, by decide⟩

/-- Settles O42: a float whose mantissa field is 0 stands for the power of two that its exponent field says. -/
theorem floatConstantsValues : Obligations.FloatConstantsValues := by
  have h32 := binary32_standard
  have h64 := binary64_standard
  exact ⟨h32.value_tmax, h64.value_tmax, value_MAX, h32.value_tmin, h64.value_tmin, value_MIN_POSITIVE, rfl, rfl, rfl, rfl,
    h32.value_inf, h64.value_inf, h32.value_one, h64.value_one⟩

end Sys2Proof.Machine
end

section
/-! SUPPORT. The exactness of the float decoder (R117): the value and the exponent field of what it puts together, by the sign and the
fields of the pattern, and what the ops DECF32 and DECF64 deliver (R115, R116). -/

namespace Sys2Proof.Machine

/-! ### The fields and the value of a pattern -/

/-- The regime run has its first bit at least (R59). -/
theorem runLength_pos (p top : Nat) : 0 < runLength p (p.testBit top) top := by
  cases top with
  | zero =>
    rw [runLength, if_pos rfl]
    exact one_pos
  | succ i =>
    rw [runLength, if_pos rfl]
    exact Nat.succ_pos _

/-- The sign, the regime's first bit and the bit after it leave no more than 13 bits, of which one is the exponent bit (R61). -/
theorem fields_fw_le (p : Pattern) : (fields p).fw ≤ 12 := by
  have run := runLength_pos p.toNat 14
  simp only [fields, fieldsFrom]
  omega

theorem withSign_ne_zero {x : Rat} (s : Bool) (h : x ≠ 0) : withSign s x ≠ 0 := by
  cases s with
  | false => exact h
  | true => exact neg_ne_zero.mpr h

section
variable {F : FloatFormat} {p : Pattern} (hF : F.Standard) (nan : Nat) (zero : p ≠ ZERO) (nar : p ≠ NAR)
include zero nar

/-- R63: the value of a pattern is that of its magnitude with its sign. -/
theorem value_eq_withSign : value p = some (withSign (signBit p) (fields (magnitude p)).value) := by
  have positive := value_of_positive (classify_magnitude zero nar)
  conv_lhs => rw [← sign_magnitude p]
  cases signBit p with
  | false => exact positive
  | true => exact value_neg16_of_value positive

/-! ### The decoded float -/

include hF
namespace FloatFormat.Standard

/-- R117: the decoded float stands for the value of the magnitude, with the sign of the pattern. -/
theorem value_decFloat : F.value (decFloat F nan p) = .finite (withSign (signBit p) (fields (magnitude p)).value) := by
  have positive := classify_magnitude zero nar
  obtain ⟨sign, mag⟩ := hF.sign_mag_decFloat nan zero nar
  rw [hF.value_of_mag_lt_inf (mag ▸ hF.decFloatMag_lt_inf positive), sign, mag, hF.magValue_decFloatMag positive]

/-- R114: the exponent field is the biased scale. -/
theorem expField_decFloat : F.expField (decFloat F nan p) = ((fields (magnitude p)).scale + F.bias).toNat := by
  obtain ⟨-, mag⟩ := hF.sign_mag_decFloat nan zero nar
  rw [expField, mag, decFloatMag, Nat.mul_add_div (Nat.two_pow_pos _), Nat.div_eq_of_lt (hF.mantissa_lt _), Nat.add_zero]

/-- R117: the exponent field is that of a normal number, no more than 28 away from the bias. -/
theorem expField_decFloat_bounds :
    F.bias - 28 ≤ F.expField (decFloat F nan p) ∧ F.expField (decFloat F nan p) ≤ F.bias + 28 := by
  obtain ⟨lo, hi⟩ := scale_bounds (classify_magnitude zero nar)
  rw [hF.expField_decFloat nan zero nar]
  omega

end FloatFormat.Standard

end

theorem decFloat_ZERO (F : FloatFormat) (nan : Nat) : decFloat F nan ZERO = 0 := rfl
theorem decFloat_NAR (F : FloatFormat) (nan : Nat) : decFloat F nan NAR = nan := rfl

/-! ### The ops -/

theorem exec_decF32 (a : Word) (s : State) : exec (.decF32 a) s =
    .next (s.deliver { y := placeU32 (decFloat binary32 s.build.nanF32.toNat (a.setWidth 16)), illegal := false }) := by
  rw [exec_of_wf rfl, resultOf, resDecF32, opPattern_eq]

theorem exec_decF64 (a : Word) (s : State) : exec (.decF64 a) s =
    .next (s.deliver { y := placeU64 (decFloat binary64 s.build.nanF64.toNat (a.setWidth 16)), illegal := false }) := by
  rw [exec_of_wf rfl, resultOf, resDecF64, opPattern_eq]

end Sys2Proof.Machine
end

section
/-! SUPPORT. The statements of the float decoder family O17, O18 and O45. -/

namespace Sys2Proof.Machine

/-- Settles O45: the pattern and both floats have the sign and the value of the pattern's fields, and the biased scale is a normal
exponent of either width. -/
theorem floatDecoderExact : Obligations.FloatDecoderExact := by
  intro nan p zero nar
  have h32 := binary32_standard
  have h64 := binary64_standard
  have nonzero : (fields (magnitude p)).value ≠ 0 := (scaled_pos _ _ _).ne'
  obtain ⟨lo32, hi32⟩ := h32.expField_decFloat_bounds nan zero nar
  obtain ⟨lo64, hi64⟩ := h64.expField_decFloat_bounds nan zero nar
  exact ⟨_, value_eq_withSign zero nar, h32.value_decFloat nan zero nar, h64.value_decFloat nan zero nar,
    withSign_ne_zero _ nonzero, fields_fw_le _, lo32, hi32, lo64, hi64⟩

/-- Settles O17: ENCF32 takes every NaN for NaR, and the corner cases but NaR are computed, whatever the NaN. -/
theorem decf32Result : Obligations.Decf32Result :=
  ⟨rfl, decode_append _, exec_decF32, fun _ => encFloat_nanF32, fun nan =>
    ⟨decFloat_ZERO _ nan, decFloat_NAR _ nan, rfl, rfl, rfl, rfl, rfl, rfl, rfl, rfl⟩⟩

/-- Settles O18: as O17 at 64 bits. -/
theorem decf64Result : Obligations.Decf64Result :=
  ⟨rfl, decode_append _, exec_decF64, fun _ => encFloat_nanF64, fun nan =>
    ⟨decFloat_ZERO _ nan, decFloat_NAR _ nan, rfl, rfl, rfl, rfl⟩⟩

end Sys2Proof.Machine
end

section
/-! SUPPORT. What the word of the regime extractor holds (R126): fields put side by side by shifts and `|||` read back, each field of
a pattern fits its place, and what the op REGX delivers. -/

namespace Sys2Proof.Machine

/-! ### Fields put side by side in a word -/

section
variable {x y : Word} {i j w : Nat}

/-- A field below the place of `y` does not see `y`. -/
theorem extractLsb'_or_shiftLeft_of_le (h : i + w ≤ j) : (x ||| y <<< j).extractLsb' i w = x.extractLsb' i w := by
  refine BitVec.eq_of_getLsbD_eq fun n hn => ?_
  have below : i + n < j := by omega
  simp [hn, below]

/-- The field at the place of `y` is `y`, where `x` ends below that place. -/
theorem extractLsb'_or_shiftLeft (hx : x.toNat < 2 ^ j) (hj : j + w ≤ 64) :
    (x ||| y <<< j).extractLsb' j w = y.setWidth w := by
  refine BitVec.eq_of_getLsbD_eq fun n hn => ?_
  have inside : j + n < 64 := by omega
  have bound : n < 64 := by omega
  have clear : x.getLsbD (j + n) = false :=
    Nat.testBit_lt_two_pow (hx.trans_le (Nat.pow_le_pow_right (by decide) (Nat.le_add_right j n)))
  rw [BitVec.getLsbD_extractLsb', BitVec.getLsbD_or, clear]
  simp [hn, inside, bound]

theorem or_shiftLeft_toNat_lt (hx : x.toNat < 2 ^ j) (hy : y.toNat < 2 ^ w) : (x ||| y <<< j).toNat < 2 ^ (j + w) :=
  or_toNat_lt (hx.trans_le (Nat.pow_le_pow_right (by decide) (Nat.le_add_right j w)))
    (shiftLeft_toNat_lt hy (Nat.add_comm w j).le)

end

/-! ### The fields of a positive pattern fit their places -/

theorem fraction12_eq (x : Fields) : fraction12 x = x.f * 2 ^ (12 - x.fw) := Nat.shiftLeft_eq _ _

section
variable (q : Pattern)

theorem fraction12_fields_lt : fraction12 (fields q) < 2 ^ 12 := by
  have fits := Nat.shiftLeft_lt (m := 12 - (fields q).fw) (fields_f_lt q)
  rwa [Nat.add_sub_cancel' (fields_fw_le q)] at fits

variable {q}

theorem fields_k_bounds (h : classify q = .positive) : -14 ≤ (fields q).k ∧ (fields q).k ≤ 14 := by
  obtain ⟨lo, hi⟩ := (classify_eq_positive_iff q).mp h
  exact (fieldLayoutByRegime q lo hi).1

theorem expPresent_eq_false_iff : expPresent q = false ↔ q = 0x7FFF#16 ∨ q = 0x7FFE#16 ∨ q = 0x0001#16 := by
  simp only [expPresent, Bool.not_eq_false', Bool.or_eq_true, beq_iff_eq, or_assoc]

end

/-! ### The magnitude -/

/-- Comparing a pattern with NaR differs from reading its sign bit at NaR alone, which is its own negation. -/
theorem magnitude_eq (p : Pattern) : magnitude p = if 0x8000#16 < p then neg16 p else p := by
  obtain rfl | nar := eq_or_ne p NAR
  · rfl
  have nar : p.toNat ≠ 0x8000 := BitVec.toNat_ne_iff_ne.mpr nar
  have negative : signBit p = true ↔ 0x8000#16 < p := by
    rw [signBit_eq, decide_eq_true_iff, BitVec.lt_def]
    exact ⟨fun h => lt_of_le_of_ne h nar.symm, le_of_lt⟩
  simp only [magnitude, negative]

/-! ### The packed word -/

/-- The part of the packed word that holds the fields of the magnitude, below the bits of R126 that stand alone. -/
def regxFields (x : Fields) : Word :=
  (BitVec.ofInt 5 x.k).setWidth 64
    ||| (BitVec.ofNat 64 x.e <<< 5)
    ||| ((BitVec.ofInt 6 x.scale).setWidth 64 <<< 6)
    ||| (BitVec.ofNat 64 x.fw <<< 12)
    ||| (BitVec.ofNat 64 (fraction12 x) <<< 16)

section
variable (q : Pattern)

/-- Each field ends below the place of the next one, so that each is read back whole. -/
theorem regxFields_extract :
    (regxFields (fields q)).extractLsb' 0 5 = BitVec.ofInt 5 (fields q).k ∧
    (regxFields (fields q)).extractLsb' 5 1 = BitVec.ofNat 1 (fields q).e ∧
    (regxFields (fields q)).extractLsb' 6 6 = BitVec.ofInt 6 (fields q).scale ∧
    (regxFields (fields q)).extractLsb' 12 4 = BitVec.ofNat 4 (fields q).fw ∧
    (regxFields (fields q)).extractLsb' 16 12 = BitVec.ofNat 12 (fraction12 (fields q)) ∧
    (regxFields (fields q)).toNat < 2 ^ 28 := by
  have upToRegime := setWidth_toNat_lt 64 (BitVec.ofInt 5 (fields q).k) le_rfl
  have upToExponent := or_shiftLeft_toNat_lt upToRegime (ofNat_toNat_lt (fields_e_lt q))
  have upToScale := or_shiftLeft_toNat_lt upToExponent (setWidth_toNat_lt 64 (BitVec.ofInt 6 (fields q).scale) le_rfl)
  have upToWidth := or_shiftLeft_toNat_lt upToScale (ofNat_toNat_lt (fields_fw_lt q))
  have upToFraction := or_shiftLeft_toNat_lt upToWidth (ofNat_toNat_lt (fraction12_fields_lt q))
  refine ⟨?_, ?_, ?_, ?_, ?_, upToFraction⟩ <;>
    simp only [regxFields, extractLsb'_or_shiftLeft_of_le, Nat.reduceAdd, Nat.reduceLeDiff, le_refl]
  · rw [extractLow_eq_setWidth, BitVec.setWidth_setWidth_of_le _ (by decide), BitVec.setWidth_eq]
  · rw [extractLsb'_or_shiftLeft upToRegime (by decide), BitVec.setWidth_ofNat_of_le (by decide)]
  · rw [extractLsb'_or_shiftLeft upToExponent (by decide), BitVec.setWidth_setWidth_of_le _ (by decide), BitVec.setWidth_eq]
  · rw [extractLsb'_or_shiftLeft upToScale (by decide), BitVec.setWidth_ofNat_of_le (by decide)]
  · rw [extractLsb'_or_shiftLeft upToWidth (by decide), BitVec.setWidth_ofNat_of_le (by decide)]

variable {q}

/-- No field of a positive pattern is cut off at its place. -/
theorem regxFields_reads_back (h : classify q = .positive) :
    ((regxFields (fields q)).extractLsb' 0 5).toInt = (fields q).k ∧
    ((regxFields (fields q)).extractLsb' 5 1).toNat = (fields q).e ∧
    ((regxFields (fields q)).extractLsb' 6 6).toInt = (fields q).scale ∧
    ((regxFields (fields q)).extractLsb' 12 4).toNat = (fields q).fw ∧
    ((regxFields (fields q)).extractLsb' 16 12).toNat = fraction12 (fields q) := by
  obtain ⟨regime, exponent, scale, width, fraction, -⟩ := regxFields_extract q
  have := fields_k_bounds h
  have := scale_bounds h
  refine ⟨?_, ?_, ?_, ?_, ?_⟩
  · rw [regime, BitVec.toInt_ofInt_eq_self (by decide) (by omega) (by omega)]
  · rw [exponent, BitVec.toNat_ofNat, Nat.mod_eq_of_lt (fields_e_lt q)]
  · rw [scale, BitVec.toInt_ofInt_eq_self (by decide) (by omega) (by omega)]
  · rw [width, BitVec.toNat_ofNat, Nat.mod_eq_of_lt (fields_fw_lt q)]
  · rw [fraction, BitVec.toNat_ofNat, Nat.mod_eq_of_lt (fraction12_fields_lt q)]

end

section
variable {p : Pattern} (zero : p ≠ ZERO) (nar : p ≠ NAR)
include zero nar

theorem regxWord_eq : regxWord p = regxFields (fields (magnitude p)) ||| placeBit (signBit p) <<< 28
    ||| placeBit (expPresent (magnitude p)) <<< 30 :=
  if_neg (not_or_intro zero nar)

/-- The bits that stand alone are above the fields. -/
theorem regxWord_extract_of_le {i w : Nat} (h : i + w ≤ 28) :
    (regxWord p).extractLsb' i w = (regxFields (fields (magnitude p))).extractLsb' i w := by
  rw [regxWord_eq zero nar, extractLsb'_or_shiftLeft_of_le (by omega), extractLsb'_or_shiftLeft_of_le h]

theorem regxWord_single_bits :
    (regxWord p).getLsbD 28 = signBit p ∧ (regxWord p).getLsbD 29 = false ∧
    (regxWord p).getLsbD 30 = expPresent (magnitude p) := by
  obtain ⟨-, -, -, -, -, below⟩ := regxFields_extract (magnitude p)
  have clear {i : Nat} (h : 28 ≤ i) : (regxFields (fields (magnitude p))).getLsbD i = false :=
    Nat.testBit_lt_two_pow (below.trans_le (Nat.pow_le_pow_right (by decide) h))
  simp only [regxWord_eq zero nar, BitVec.getLsbD_or, clear, Nat.reduceLeDiff, le_refl]
  cases signBit p <;> cases expPresent (magnitude p) <;> decide

end

/-! ### The op -/

theorem exec_regx (a : Word) (s : State) : exec (.regx a) s =
    .next (s.deliver { y := regxWord (a.setWidth 16), illegal := false }) := by
  rw [exec_of_wf rfl, resultOf, resRegx, opPattern_eq]

end Sys2Proof.Machine
end

section
/-! SUPPORT. The statement of the regime extractor family, O19. -/

namespace Sys2Proof.Machine

/-- Settles O19: every field of the magnitude fits its place in the packed word and is read back whole; the corner cases and the
example are computed. -/
theorem regxFieldsReadBack : Obligations.RegxFieldsReadBack := by
  refine ⟨decode_append _, fun a s => ⟨_, exec_regx a s, ?_⟩⟩
  dsimp only
  generalize a.setWidth 16 = p
  rw [← magnitude_eq p]
  refine ⟨?zero, ?nar, fun zero nar => ?finite, ?max, ?minPositive, ?printed⟩
  case finite =>
    obtain ⟨regime, exponent, scale, width, fraction⟩ := regxFields_reads_back (classify_magnitude zero nar)
    obtain ⟨sign, special, present⟩ := regxWord_single_bits zero nar
    rw [← fraction12_eq]
    simp only [regxWord_extract_of_le zero nar, Nat.reduceAdd, Nat.reduceLeDiff]
    exact ⟨regime, exponent, scale, width, fraction, sign, special, by rw [present, expPresent_eq_false_iff],
      regxWord_lt p⟩
  all_goals
    rintro rfl
    decide

end Sys2Proof.Machine
end

section
/-! SUPPORT. Facts about exceptions that the proofs of the exceptions family need: which op codes are not well formed in a build (R136),
and what EXEC gives for inputs that are outside a format's range or no number (R137). -/

namespace Sys2Proof.Machine

/-! ### The reserved op codes (R46, R47, R136) -/

/-- A transaction is not well formed exactly when its op code is on R136's list. -/
theorem wf_eq_false_iff (b : Build) (i : Instr) :
    i.wf b = false ↔
      i.opcode = 0xE#4 ∨ i.opcode = 0xF#4 ∨
        (b.hasSignedAdapter = false ∧
          (i.opcode = 0x4#4 ∨ i.opcode = 0x5#4 ∨ i.opcode = 0x6#4 ∨ i.opcode = 0x7#4)) := by
  cases i <;> simp [Instr.wf, Instr.opcode]

theorem EXEC_illegal (b : Build) (i : Instr) : (EXEC b i).illegal = !i.wf b := by
  cases hwf : i.wf b
  case true => rw [EXEC_of_wf hwf, Bool.not_true]
  case false => rw [EXEC_of_not_wf hwf, Bool.not_false]

theorem EXEC_y_of_illegal {b : Build} {i : Instr} (h : (EXEC b i).illegal = true) : (EXEC b i).y = 0#64 := by
  rw [EXEC_illegal, Bool.not_eq_true'] at h
  rw [EXEC_of_not_wf h]

/-! ### The EXEC pair of an encoder by the pattern it answers -/

section
variable {b : Build} {a : Word} {p : Pattern}

theorem EXEC_encU32 (h : encMag (a.toNat % 2 ^ 32) = p) : EXEC b (.encU32 a) = { y := p.setWidth 64, illegal := false } := by
  rw [EXEC_of_wf rfl, resultOf, resEncU32, opU32_eq, h, placePattern]

theorem EXEC_encU64 (h : encMag a.toNat = p) : EXEC b (.encU64 a) = { y := p.setWidth 64, illegal := false } := by
  rw [EXEC_of_wf rfl, resultOf, resEncU64, opU64_eq, h, placePattern]

theorem EXEC_encF32 (h : encFloat binary32 (a.toNat % 2 ^ 32) = p) :
    EXEC b (.encF32 a) = { y := p.setWidth 64, illegal := false } := by
  rw [EXEC_of_wf rfl, resultOf, resEncF32, opU32_eq, h, placePattern]

theorem EXEC_encF64 (h : encFloat binary64 a.toNat = p) : EXEC b (.encF64 a) = { y := p.setWidth 64, illegal := false } := by
  rw [EXEC_of_wf rfl, resultOf, resEncF64, opU64_eq, h, placePattern]

theorem EXEC_encI32 (adapter : b.hasSignedAdapter = true) (h : encSigned (a.setWidth 32).toInt = p) :
    EXEC b (.encI32 a) = { y := p.setWidth 64, illegal := false } := by
  rw [EXEC_of_wf (i := .encI32 a) adapter, resultOf, resEncI32, opI32_eq, h, placePattern]

theorem EXEC_encI64 (adapter : b.hasSignedAdapter = true) (h : encSigned a.toInt = p) :
    EXEC b (.encI64 a) = { y := p.setWidth 64, illegal := false } := by
  rw [EXEC_of_wf (i := .encI64 a) adapter, resultOf, resEncI64, opI64_eq, h, placePattern]

end

/-! ### Inputs outside the range of a posit -/

/-- Step 2 of R73 answers one pattern for the whole of its range. -/
theorem encMag_of_step2 {u : Nat} (lo : 0x02FFFFFF < u) (hi : u ≤ 0x08000000) : encMag u = SECOND_LARGEST :=
  (if_neg hi.not_gt).trans (if_pos lo)

theorem encSigned_of_gt {i : Int} (h : 0x08000000 < i) : encSigned i = MAX := by
  rw [encSigned_of_nonneg (by omega), encMag_of_gt (by omega)]

/-- R105, R107: what stands for no real number is at or above INF. -/
theorem FloatFormat.Standard.encFloat_of_not_finite {F : FloatFormat} (hF : F.Standard) {b : Nat}
    (h : F.value b = .nan ∨ ∃ negative, F.value b = .infinity negative) : encFloat F b = NAR := by
  apply hF.encFloat_of_inf_le
  by_contra! below
  simp [hF.value_of_mag_lt_inf below] at h

/-! ### Patterns outside the range of the decoders -/

section
variable {b : Build} {a : Word}

theorem EXEC_decUnsigned_of_ge (h : 0x8000 ≤ a.toNat % 2 ^ 16) :
    EXEC b (.decU32 a) = { y := 0#64, illegal := false } ∧ EXEC b (.decU64 a) = { y := 0#64, illegal := false } := by
  rw [EXEC_of_wf rfl, EXEC_of_wf rfl, resultOf, resultOf, resDecU64_eq_resDecU32, resDecU32_of_ge h]
  exact ⟨rfl, rfl⟩

theorem setWidth_eq_NAR (h : a.toNat % 2 ^ 16 = 0x8000) : a.setWidth 16 = NAR :=
  BitVec.eq_of_toNat_eq ((BitVec.toNat_setWidth 16 a).trans h)

theorem EXEC_decSigned_of_NAR (adapter : b.hasSignedAdapter = true) (nar : a.setWidth 16 = NAR) :
    EXEC b (.decI32 a) = { y := 0#64, illegal := false } ∧ EXEC b (.decI64 a) = { y := 0#64, illegal := false } := by
  rw [EXEC_of_wf (i := .decI32 a) adapter, EXEC_of_wf (i := .decI64 a) adapter, resultOf, resultOf, resDecI32_of_pattern nar,
    resDecI64_of_pattern nar, decSigned_NAR]
  exact ⟨rfl, rfl⟩

theorem EXEC_decFloat_of_NAR (nar : a.setWidth 16 = NAR) :
    EXEC b (.decF32 a) = { y := b.nanF32.setWidth 64, illegal := false } ∧
    EXEC b (.decF64 a) = { y := b.nanF64, illegal := false } := by
  rw [EXEC_of_wf rfl, EXEC_of_wf rfl, resultOf, resultOf, resDecF32, resDecF64, opPattern_eq, nar, decFloat_NAR, decFloat_NAR,
    placeU32, placeU64, BitVec.ofNat_toNat, BitVec.ofNat_toNat, BitVec.setWidth_eq, BitVec.setWidth_eq]
  exact ⟨rfl, rfl⟩

end

end Sys2Proof.Machine
end

section
/-! SUPPORT. A block that holds no ILLEGAL_OP and is presented none never shows one (R136): what driving, a reset edge and delivering do
to a clean state, and what its outputs show. -/

namespace Sys2Proof.Machine

/-! ### Harmless ports -/

theorem harmless_iff {b : Build} {p : Ports} :
    p.harmless b = true ↔ (decode p.word).wf b = true ∨ b.latency ≠ 0 ∧ (p.inValid = false ∨ p.rst = true) := by
  simp [Ports.harmless]

/-- A transaction that the block takes from harmless ports has a meaning in the build. -/
theorem EXEC_illegal_eq_false_of_harmless {b : Build} {p : Ports} (h : p.harmless b = true)
    (taken : b.latency = 0 ∨ p.inValid = true ∧ p.rst = false) : (EXEC b (decode p.word)).illegal = false := by
  obtain wf | ⟨hpipe, idle⟩ := harmless_iff.mp h
  · rw [EXEC_illegal, wf, Bool.not_true]
  · obtain hlat | ⟨valid, noReset⟩ := taken
    · exact absurd hlat hpipe
    · simp [valid, noReset] at idle

theorem quiet_harmless {b : Build} {p : Ports} (h : p.harmless b = true) : p.quiet.harmless b = true := by
  obtain wf | ⟨hpipe, -⟩ := harmless_iff.mp h
  · exact harmless_iff.mpr (.inl wf)
  · exact harmless_iff.mpr (.inr ⟨hpipe, .inl rfl⟩)

/-! ### What keeps a state clean -/

section
variable {s t : State} (hs : s.Clean)
include hs

/-- Driving takes the ports from the list, or quiets them. -/
theorem drive_clean : s.drive.Clean := by
  obtain ⟨hscript, hports, hrest⟩ := hs
  refine ⟨fun p hp => ?_, ?_, by simpa using hrest⟩
  · rw [drive_build]
    exact hscript p (List.mem_of_mem_tail (drive_script s ▸ hp))
  · rw [drive_build]
    cases h : s.script with
    | nil => rw [drive_ports_nil h]; exact quiet_harmless hports
    | cons p rest => rw [drive_ports_cons h]; exact hscript p (h ▸ List.mem_cons_self)

/-- A reset edge leaves no valid stage (R150). -/
theorem resetEdge_clean (hlat : s.build.latency ≠ 0) : s.resetEdge.Clean := by
  obtain ⟨hscript, hports, -⟩ := hs
  refine ⟨hscript, hports, fun st hst valid => ?_, fun h0 => absurd h0 hlat, fun _ => ?_⟩
  · rw [freeStages_vld hst] at valid
    cases valid
  · exact List.ne_nil_of_length_pos (by simpa using Nat.pos_of_ne_zero hlat)

/-- Outside a reset edge the delivered pair is harmless wherever it is shown: on the outputs of a combinational build, and in stage 1
of a pipelined one where `in_valid` says that it is a result. -/
theorem deliver_clean (hreset : s.build.latency = 0 ∨ s.ports.rst = false) :
    (s.deliver (EXEC s.build (decode s.ports.word))).Clean := by
  obtain ⟨hscript, hports, hstages, hcomb, -⟩ := hs
  refine ⟨by simpa using hscript, by simpa using hports, ?_⟩
  rw [deliver_build, deliver_stages, deliver_settled]
  by_cases hlat : s.build.latency = 0
  · obtain ⟨no_stage, -⟩ := hcomb hlat
    rw [if_pos hlat, if_pos hlat]
    exact ⟨hstages, fun _ => ⟨no_stage, EXEC_illegal_eq_false_of_harmless hports (.inl hlat)⟩, fun hpipe => absurd hlat hpipe⟩
  · rw [if_neg hlat, if_neg hlat]
    refine ⟨fun st hst valid => ?_, fun h0 => absurd h0 hlat, fun _ => ?_⟩
    · obtain rfl | old := mem_shiftStages hst
      · exact EXEC_illegal_eq_false_of_harmless hports (.inr ⟨valid, hreset.resolve_left hlat⟩)
      · exact hstages st old valid
    · obtain ⟨n, hn⟩ := Nat.exists_eq_succ_of_ne_zero hlat
      rw [hn, shiftStages_cons]
      exact List.cons_ne_nil _ _

theorem step_clean (hstep : step s = .next t) : t.Clean := by
  have driven := drive_clean hs
  rw [step_eq] at hstep
  obtain rfl := Host.Outcome.next.inj hstep
  split
  case isTrue hreset => exact resetEdge_clean driven (inReset_eq_true_iff.mp hreset).1
  case isFalse hreset =>
    simpa using deliver_clean driven (inReset_eq_false_iff.mp (Bool.eq_false_of_not_eq_true hreset))

/-- The outputs of a clean state show a legal pair or, in a pipelined build, no result. -/
theorem safe_of_clean : s.safe := by
  obtain ⟨-, -, hstages, hcomb, hpipe⟩ := hs
  by_cases hlat : s.build.latency = 0
  · obtain ⟨no_stage, legal⟩ := hcomb hlat
    obtain ⟨-, illegal, valid⟩ := outputs_of_no_stage no_stage
    simp [State.safe, State.hostView, illegal, valid, legal]
  · have some_stage := hpipe hlat
    have last : s.lastStage = some (s.stages.getLast some_stage) := List.getLast?_eq_some_getLast some_stage
    obtain ⟨-, illegal, valid⟩ := outputs_of_lastStage last
    have legal := hstages _ (List.getLast_mem some_stage)
    cases hv : (s.stages.getLast some_stage).vld with
    | false => simp [State.safe, State.hostView, valid, hv]
    | true => simp [State.safe, State.hostView, valid, hv, illegal, legal hv]

end

/-- The ports at reset ask for ENCU32, and the block has no stage (notes/assumptions/4.md). -/
theorem reset_clean : State.reset.Clean :=
  ⟨nofun, by decide, nofun, fun _ => ⟨rfl, rfl⟩, fun hpipe => absurd rfl hpipe⟩

end Sys2Proof.Machine
end

section
/-! SUPPORT. The statements of the exceptions family O22, O23, O26 and O59. -/

namespace Sys2Proof.Machine

/-- Settles O22: the EXEC pair that `exec` delivers is the op map's result with `illegal` 0. -/
theorem wellFormedOpsNeverIllegal : Obligations.WellFormedOpsNeverIllegal := fun _ _ => exec_of_wf

/-- Settles O23: the pair is EXEC of the transaction, illegal exactly where the transaction is not well formed. -/
theorem illegalExactlyWhenReserved : Obligations.IllegalExactlyWhenReserved := by
  intro i s
  refine ⟨EXEC s.build i, exec_eq i s, ?_, EXEC_y_of_illegal⟩
  rw [EXEC_illegal, Bool.not_eq_true', wf_eq_false_iff]

/-- Settles O26: each encoder answers by the range of its input, the float ones saturating as their rounding does, and each decoder
reads a pattern that its format has no number for as the table says. -/
theorem outOfRangeInputsMapToValues : Obligations.OutOfRangeInputsMapToValues := by
  intro b adapter a
  refine ⟨fun h => EXEC_encU32 (encMag_of_gt h), fun h => EXEC_encU64 (encMag_of_gt h),
    fun lo hi => EXEC_encU32 (encMag_of_step2 lo hi), fun lo hi => EXEC_encU64 (encMag_of_step2 lo hi),
    fun h => EXEC_encI32 adapter (encSigned_of_lt h), fun h => EXEC_encI64 adapter (encSigned_of_lt h),
    fun h => EXEC_encI32 adapter (encSigned_of_gt h), fun h => EXEC_encI64 adapter (encSigned_of_gt h),
    fun h => EXEC_encF32 (binary32_standard.encFloat_of_not_finite h),
    fun h => EXEC_encF64 (binary64_standard.encFloat_of_not_finite h), fun x hx => ?float32, fun x hx => ?float64,
    fun h => ?nar, fun h => EXEC_decUnsigned_of_ge h.le, fun h => EXEC_decFloat_of_NAR (setWidth_eq_NAR h)⟩
  case float32 =>
    obtain ⟨-, -, -, above, below, tiny, tinyNegative⟩ :=
      encFloatIsPositRounding binary32 _ (.inl rfl) (Nat.mod_lt _ (Nat.two_pow_pos 32)) x hx
    exact ⟨fun h => EXEC_encF32 (above h), fun h => EXEC_encF32 (below h), fun pos h => EXEC_encF32 (tiny pos h),
      fun neg h => EXEC_encF32 (tinyNegative neg h)⟩
  case float64 =>
    obtain ⟨-, -, -, above, below, tiny, tinyNegative⟩ := encFloatIsPositRounding binary64 _ (.inr rfl) a.isLt x hx
    exact ⟨fun h => EXEC_encF64 (above h), fun h => EXEC_encF64 (below h), fun pos h => EXEC_encF64 (tiny pos h),
      fun neg h => EXEC_encF64 (tinyNegative neg h)⟩
  case nar =>
    obtain ⟨unsigned32, unsigned64⟩ := EXEC_decUnsigned_of_ge h.ge
    exact ⟨unsigned32, unsigned64, EXEC_decSigned_of_NAR adapter (setWidth_eq_NAR h)⟩

/-- Settles O59: a step drives and then resets or delivers, each of which keeps a clean state clean, and a clean state shows no
ILLEGAL_OP. -/
theorem harmlessHostNeverSeesIllegal : Obligations.HarmlessHostNeverSeesIllegal :=
  ⟨fun _ _ => step_clean, fun _ => safe_of_clean, reset_clean⟩

end Sys2Proof.Machine
end

section
/-! SUPPORT. A run of edges without reset (R23, R155): what it leaves in the stages, as one function of the samples and the old stages,
and what the output ports then show. -/

namespace Sys2Proof.Machine

/-! ### The stages after a run of samples -/

/-- The stages of build `b` after edges without reset that sampled `ps`, oldest first, over the stages `l`. -/
def stagesAfter (b : Build) (ps : List Ports) (l : List Stage) : List Stage :=
  ((ps.map (Stage.ofPorts b)).reverse ++ l).take b.latency

section
variable {b : Build} {ps : List Ports} {l : List Stage}

/-- What an edge drops from the last stage never comes back. -/
theorem stagesAfter_cons (p : Ports) :
    stagesAfter b (p :: ps) l = stagesAfter b ps ((Stage.ofPorts b p :: l).take b.latency) := by
  simp [stagesAfter, List.take_append, List.take_take]

theorem stagesAfter_nil (count : l.length = b.latency) : stagesAfter b [] l = l := List.take_of_length_le count.le

/-- The last stage is the LATENCY-th of the samples, newest first, and the old stages after them. -/
theorem stagesAfter_getLast? (count : l.length = b.latency) (hlat : 1 ≤ b.latency) :
    (stagesAfter b ps l).getLast? = ((ps.map (Stage.ofPorts b)).reverse ++ l)[b.latency - 1]? := by
  have length : (stagesAfter b ps l).length = b.latency := by simp [stagesAfter, count]
  rw [List.getLast?_eq_getElem?, length, stagesAfter, List.getElem?_take_of_lt (by omega)]

/-- After LATENCY edges or more the last stage holds the pair sampled LATENCY edges ago, counting the edge that sampled it (R23). -/
theorem stagesAfter_getLast?_sampled {p : Ports} (count : l.length = b.latency) (hlat : 1 ≤ b.latency)
    (enough : b.latency ≤ ps.length) (hp : ps[ps.length - b.latency]? = some p) :
    (stagesAfter b ps l).getLast? = some (Stage.ofPorts b p) := by
  have position : ps.length - 1 - (b.latency - 1) = ps.length - b.latency := by omega
  rw [stagesAfter_getLast? count hlat, List.getElem?_append_left (by simp; omega), List.getElem?_reverse (by simp; omega),
    List.length_map, position, List.getElem?_map, hp, Option.map_some]

/-- Before that it holds what one of the old stages held. -/
theorem stagesAfter_getLast?_old (count : l.length = b.latency) (few : ps.length < b.latency) :
    ∃ st ∈ l, (stagesAfter b ps l).getLast? = some st := by
  have position : b.latency - 1 - ps.length < l.length := by omega
  refine ⟨l[b.latency - 1 - ps.length], List.getElem_mem position, ?_⟩
  rw [stagesAfter_getLast? count (by omega), List.getElem?_append_right (by simp; omega), List.length_reverse, List.length_map,
    List.getElem?_eq_getElem position]

end

/-! ### The run -/

/-- An edge that samples `p` shifts its EXEC pair in (R23). -/
theorem step_samples {s : State} {p : Ports} {rest : List Ports} (hlat : s.build.latency ≠ 0) (hscript : s.script = p :: rest)
    (hrst : p.rst = false) :
    ∃ t, step s = .next t ∧ t.build = s.build ∧ t.script = rest ∧
      t.stages = (Stage.ofPorts s.build p :: s.stages).take s.build.latency := by
  have hports := drive_ports_cons hscript
  refine ⟨_, step_eq_deliver (.inr (by rw [hports, hrst])), by simp, by simp [hscript], ?_⟩
  rw [deliver_stages, if_neg (by simpa using hlat), drive_build, drive_stages, hports]
  rfl

/-- An edge with reset leaves free stages that depend on neither the discarded transaction nor the old stages (R150). -/
theorem step_resets {s : State} {p : Ports} {rest : List Ports} (hlat : s.build.latency ≠ 0) (hscript : s.script = p :: rest)
    (hrst : p.rst = true) :
    ∃ t, step s = .next t ∧ t.build = s.build ∧ t.script = rest ∧
      t.stages = freeStages (fun _ => false) s.freeIx s.build.latency :=
  ⟨_, step_eq_resetEdge hlat (by rw [drive_ports_cons hscript, hrst]), by simp, by simp [hscript], by simp⟩

/-- One edge for each of `ps`, none a reset, runs `ps` through the stages. -/
theorem runSteps_samples {s : State} {ps rest : List Ports} (hlat : s.build.latency ≠ 0)
    (hcount : s.stages.length = s.build.latency) (hscript : s.script = ps ++ rest) (hrst : ∀ p ∈ ps, p.rst = false) :
    ∃ t, runSteps ps.length s = .next t ∧ t.build = s.build ∧ t.script = rest ∧
      t.stages = stagesAfter s.build ps s.stages := by
  induction ps generalizing s with
  | nil => exact ⟨s, runSteps_zero s, rfl, hscript, (stagesAfter_nil hcount).symm⟩
  | cons p ps ih =>
    obtain ⟨u, hstep, build, script, stages⟩ := step_samples hlat hscript (hrst p List.mem_cons_self)
    obtain ⟨t, run, rest_build, rest_script, rest_stages⟩ := ih (s := u) (by rwa [build]) (by simp [build, stages, hcount]) script
      fun q hq => hrst q (List.mem_cons_of_mem p hq)
    refine ⟨t, (runSteps_succ ps.length hstep).trans run, rest_build.trans build, rest_script, ?_⟩
    rw [rest_stages, build, stages, stagesAfter_cons]

/-- What the output ports show when the last stage holds the pair that was sampled from `p` (R23). -/
theorem outputs_of_sampled {t : State} {b : Build} {p : Ports} (h : t.lastStage = some (Stage.ofPorts b p)) :
    t.outValid = some p.inValid ∧ { y := t.y, illegal := t.illegal } = EXEC b (decode p.word) := by
  obtain ⟨y, illegal, valid⟩ := outputs_of_lastStage h
  exact ⟨valid, by rw [y, illegal]; rfl⟩

end Sys2Proof.Machine
end

section
/-! SUPPORT. The statements of the reset and hazards family O52 to O54, with O4. -/

namespace Sys2Proof.Machine

/-- Settles O53: the first `n` entries run through the stages, and the last stage then holds the pair of entry `n - LATENCY`. -/
theorem pipelineDeliversInOrder : Obligations.PipelineDeliversInOrder := by
  rintro s n L rfl hlat hcount enough hrst
  have length : (s.script.take n).length = n := List.length_take_of_le enough
  obtain ⟨t, run, build, script, stages⟩ :=
    runSteps_samples (Nat.one_le_iff_ne_zero.mp hlat) hcount (List.take_append_drop n s.script).symm hrst
  rw [length] at run
  refine ⟨t, run, build, script, stages, fun p hn hp => outputs_of_sampled ?_⟩
  rw [State.lastStage, stages]
  refine stagesAfter_getLast?_sampled hcount hlat (hn.trans_eq length.symm) ?_
  rw [length, List.getElem?_take_of_lt (by omega), hp]

/-- Settles O54: the reset edge leaves LATENCY stages, none valid, and by O53 the entries after it run through them: the last stage
holds one of those stages until LATENCY edges have passed. -/
theorem afterResetResultsAreNew : Obligations.AfterResetResultsAreNew := by
  rintro s p qs n L rfl hlat hscript hp enough hrst
  obtain ⟨u, reset, build, rfl, free⟩ := step_resets (Nat.one_le_iff_ne_zero.mp hlat) hscript hp
  have count : u.stages.length = u.build.latency := by simp [free, build]
  rw [← build] at hlat ⊢
  obtain ⟨t, run, -, -, stages, shows⟩ := pipelineDeliversInOrder u n _ rfl hlat count enough hrst
  refine ⟨t, (runSteps_succ n reset).trans run, fun few => ?_, shows⟩
  obtain ⟨st, old, last⟩ := stagesAfter_getLast?_old count (ps := u.script.take n) (by rwa [List.length_take_of_le enough])
  obtain ⟨-, -, valid⟩ := outputs_of_lastStage (by rw [State.lastStage, stages, ← stagesAfter, last])
  rw [valid, freeStages_vld (free ▸ old)]

/-- Settles O52: a reset edge fills in free stages, numbered by `freeIx` alone; without stages a step delivers the EXEC pair of the word
on the ports, of which `rst` is no part. -/
theorem resetEdgeDiscardsAndClears : Obligations.ResetEdgeDiscardsAndClears := by
  refine ⟨fun s p rest hlat hscript hp => ?_, fun s p rest hlat hscript => ?_⟩
  · have hpipe := Nat.one_le_iff_ne_zero.mp hlat
    obtain ⟨t, reset, -, -, free⟩ := step_resets hpipe hscript hp
    have count : t.stages.length = s.build.latency := by simp [free]
    have cleared : ∀ st ∈ t.stages, st.vld = false := fun st hst => freeStages_vld (free ▸ hst)
    have invalid := outValid_of_no_valid_stage (List.ne_nil_of_length_pos (count ▸ hlat)) cleared
    refine ⟨t, reset, count, cleared, invalid, if_pos invalid, fun q hq => ?_⟩
    obtain ⟨t', reset', -, -, free'⟩ := step_resets (s := { s with script := q :: rest }) hpipe rfl hq
    exact ⟨t', reset', free'.trans free.symm⟩
  · refine ⟨_, _, step_eq_deliver (.inl hlat), step_eq_deliver (.inl hlat), ?_, by simp [deliver_stages, hlat]⟩
    simp only [deliver_settled, drive_build, hlat, if_true, drive_ports_cons hscript]
    rfl

/-- Settles O4: each printed word is the encoding of the transaction that its line writes. -/
theorem specWordsDecode : Obligations.SpecWordsDecode :=
  ⟨decode_encode (.encU32 0x3#64), decode_encode (.encU64 0x20#64), decode_encode (.decU32 0x7400#64),
    decode_encode (.decU64 0x7FFF#64), decode_encode (.encI32 0xFFFFFFE0#64), decode_encode (.encI64 0xFFFFFFFFFFFFFFFD#64),
    decode_encode (.decI32 0x8C00#64), decode_encode (.encF64 0x402E000000000000#64), decode_encode (.regx 0x6F00#64),
    decode_encode (.reserved0xF 0x0#64)⟩

end Sys2Proof.Machine
end
